-- ==== Sys2Proof/Word.lean ====
section
/-!
DEFINITION. The words of the TK740 model: bytes, identities, circuit numbers, the eight-fold record that every
per-circuit quantity is kept in, and the three roundings the manual uses (00, Conventions).
-/
namespace Sys2Proof

abbrev Byte := BitVec 8

/-- A unit identity, 48 bits (00, Unit identities). -/
abbrev Identity := BitVec 48

/-- A lamp circuit, 0 TURN-L to 7 AUX (00, The lamp circuits). -/
abbrev Circuit := Fin 8

/-- A set of circuit numbers: bit c is circuit c (R198). -/
abbrev CircuitSet := BitVec 8

/-- The sixteen Function Word items: bit n is item n (R198). -/
abbrev FunctionWord := BitVec 16

/-- A set of rule numbers: bit n is rule n (R198). -/
abbrev MemberSet := BitVec 32

/-- One value for each of the eight circuits. -/
structure PerCircuit (α : Type) where
  c0 : α
  c1 : α
  c2 : α
  c3 : α
  c4 : α
  c5 : α
  c6 : α
  c7 : α
deriving DecidableEq, Repr

/-- The circuits in ascending order. -/
def allCircuits : List Circuit := [0, 1, 2, 3, 4, 5, 6, 7]

def PerCircuit.get {α : Type} (p : PerCircuit α) (c : Circuit) : α :=
  match c.val with
  | 0 => p.c0
  | 1 => p.c1
  | 2 => p.c2
  | 3 => p.c3
  | 4 => p.c4
  | 5 => p.c5
  | 6 => p.c6
  | _ => p.c7

def PerCircuit.ofFn {α : Type} (f : Circuit → α) : PerCircuit α :=
  { c0 := f 0, c1 := f 1, c2 := f 2, c3 := f 3, c4 := f 4, c5 := f 5, c6 := f 6, c7 := f 7 }

def PerCircuit.set {α : Type} (p : PerCircuit α) (c : Circuit) (a : α) : PerCircuit α :=
  match c.val with
  | 0 => { p with c0 := a }
  | 1 => { p with c1 := a }
  | 2 => { p with c2 := a }
  | 3 => { p with c3 := a }
  | 4 => { p with c4 := a }
  | 5 => { p with c5 := a }
  | 6 => { p with c6 := a }
  | _ => { p with c7 := a }

def PerCircuit.mapAt {α β : Type} (p : PerCircuit α) (f : Circuit → α → β) : PerCircuit β :=
  PerCircuit.ofFn fun c => f c (p.get c)

def PerCircuit.fill {α : Type} (a : α) : PerCircuit α := PerCircuit.ofFn fun _ => a

def PerCircuit.toList {α : Type} (p : PerCircuit α) : List α :=
  [p.c0, p.c1, p.c2, p.c3, p.c4, p.c5, p.c6, p.c7]

@[simp] theorem PerCircuit.get_ofFn {α : Type} (f : Circuit → α) (c : Circuit) :
    (PerCircuit.ofFn f).get c = f c := by
  fin_cases c <;> rfl

@[simp] theorem PerCircuit.get_set_same {α : Type} (p : PerCircuit α) (c : Circuit) (a : α) :
    (p.set c a).get c = a := by
  fin_cases c <;> rfl

theorem PerCircuit.get_set_other {α : Type} (p : PerCircuit α) (c d : Circuit) (a : α) (h : d ≠ c) :
    (p.set c a).get d = p.get d := by
  fin_cases c <;> fin_cases d <;> first | rfl | exact absurd rfl h

@[simp] theorem PerCircuit.get_mapAt {α β : Type} (p : PerCircuit α) (f : Circuit → α → β) (c : Circuit) :
    (p.mapAt f).get c = f c (p.get c) := by
  simp [PerCircuit.mapAt]

@[simp] theorem PerCircuit.get_fill {α : Type} (a : α) (c : Circuit) :
    (PerCircuit.fill a).get c = a := by
  simp [PerCircuit.fill]

theorem PerCircuit.ext_get {α : Type} {p q : PerCircuit α} (h : ∀ c, p.get c = q.get c) : p = q := by
  obtain ⟨_, _, _, _, _, _, _, _⟩ := p
  obtain ⟨_, _, _, _, _, _, _, _⟩ := q
  have h0 := h 0; have h1 := h 1; have h2 := h 2; have h3 := h 3
  have h4 := h 4; have h5 := h 5; have h6 := h 6; have h7 := h 7
  simp only [PerCircuit.get] at h0 h1 h2 h3 h4 h5 h6 h7
  simp_all

/-- "Round half up" of a quotient of whole numbers (00, Rounding). -/
def roundHalfUp (n d : Nat) : Nat := (2 * n + d) / (2 * d)

/-- The ceiling of R88: e times T over 1000, computed as (e times T + 999) over 1000, truncated. -/
def ceilPerMille (e t : Nat) : Nat := (e * t + 999) / 1000

/-- A value clamped to the nearer end of its range (00, Ranges). -/
def clamp (lo hi n : Nat) : Nat := if n < lo then lo else if hi < n then hi else n

end Sys2Proof
end

