-- ==== Sys2Proof/Syntax.lean ====
section
/-!
DEFINITION. The commands of the TK740: one constructor for each row of spec/opcode_table.json, with the operands the
rule that owns the row gives it. A host request or tell carries the body bytes of its frame (R198), so that every
form of the frame, a wrong length among them, can be written (log 3).
-/
namespace Sys2Proof

/-- The nine converter codes of one scan, 12 bits each (01, section 1.1; R1). -/
structure ScanCodes where
  current : PerCircuit (BitVec 12)
  supply : BitVec 12
deriving DecidableEq, Repr

/-- A frame of the host link without its SYNC, LEN and CRC bytes (R165): LEN is the length of the body. -/
structure HostFrame where
  kind : Byte
  body : List Byte
deriving DecidableEq, Repr

/-- A frame of the chain line as received (R201). -/
structure ChainFrame where
  addr : Byte
  ty : Byte
  len : Byte
  payload : List Byte
  crc : Byte
deriving DecidableEq, Repr

inductive Instr where
  | powerOn
  | resetLineAssert
  | resetLineRelease
  | restartReset
  | storeLoadDone
  | hostFrameValid (kind : Byte) (body : List Byte)
  | hostFrameOversize
  | hostFrameBroken
  | hostFrameBadCrc
  | unknownKind (kind : Byte) (body : List Byte)
  | frameSent
  | identify (body : List Byte)
  | status (body : List Byte)
  | census (body : List Byte)
  | readChain (body : List Byte)
  | readLoads (body : List Byte)
  | readFaults (body : List Byte)
  | display (body : List Byte)
  | setParam (body : List Byte)
  | readParam (body : List Byte)
  | writeRule (body : List Byte)
  | readRule (body : List Byte)
  | relearn (body : List Byte)
  | storeConfig (body : List Byte)
  | standby (body : List Byte)
  | restart (body : List Byte)
  | clearWake (body : List Byte)
  | serviceEnter (body : List Byte)
  | serviceLeave (body : List Byte)
  | serviceReset (body : List Byte)
  | commissionBegin (body : List Byte)
  | commissionConfirm (body : List Byte)
  | readCapture (body : List Byte)
  | releaseBegin (body : List Byte)
  | releaseConfirm (body : List Byte)
  | clearFaults (body : List Byte)
  | function (body : List Byte)
  | clusterReport (body : List Byte)
  | fwStale
  | linkSilent
  | scan (codes : ScanCodes)
  | supplyWindowComplete
  | zeroWindowComplete (c : Circuit)
  | settleExpiry (c : Circuit)
  | judgementInstant (c : Circuit)
  | standbyScan (codes : ScanCodes)
  | cadenceExpiry (c : Circuit)
  | rollSend
  | assignSend
  | visitStart
  | repoll
  | chainFrameSent
  | chainAnswerComplete (frame : ChainFrame)
  | chainAnswerAbandon
  | answerWindowClose
  | strayChainFrame (frame : ChainFrame)
  | visitTimeLimit
  | pollCycleEnd
  | standbyPollCycle
  | holdoffExpiry
  | agingSweep
  | lingerExpiry (entry : Nat)
  | reconcileExpiry
  | captureWindowExpiry
  | releaseTimerExpiry
  | serviceLineFall
  | serviceLineRise
  | storeWriteEnd (good : Bool)
deriving DecidableEq, Repr

end Sys2Proof
end

