-- ==== Sys2Proof/Decode.lean ====
section
/-!
DEFINITION. The frames of the two links as bytes (R165, R201), the kind codes and body lengths of the host's records
(R198, R199), and the two readings between a host frame and the command it is. The rows of the opcode table give no
bits, so no table word spells a command.
-/
namespace Sys2Proof

/-! ### The two checks -/

/-- One bit of the host link's CRC: polynomial 0x1021, most significant bit first (R165). -/
def crc16Bit (c : BitVec 16) : BitVec 16 := if c.msb then (c <<< 1) ^^^ 0x1021#16 else c <<< 1

def crc16Byte (c : BitVec 16) (b : Byte) : BitVec 16 :=
  let x := c ^^^ (b.setWidth 16 <<< 8)
  crc16Bit (crc16Bit (crc16Bit (crc16Bit (crc16Bit (crc16Bit (crc16Bit (crc16Bit x)))))))

/-- CRC-16 of the host link and of the store blocks: initial value 0xFFFF, no final inversion (R165, R181). -/
def crc16 (bytes : List Byte) : BitVec 16 := bytes.foldl crc16Byte 0xFFFF#16

/-- One bit of the chain line's CRC: polynomial 0x07, most significant bit first (R201). -/
def crc8Bit (c : BitVec 8) : BitVec 8 := if c.msb then (c <<< 1) ^^^ 0x07#8 else c <<< 1

def crc8Byte (c : BitVec 8) (b : Byte) : BitVec 8 :=
  crc8Bit (crc8Bit (crc8Bit (crc8Bit (crc8Bit (crc8Bit (crc8Bit (crc8Bit (c ^^^ b))))))))

/-- CRC-8 of the chain line: initial value 0x00, no final inversion (R201). -/
def crc8 (bytes : List Byte) : BitVec 8 := bytes.foldl crc8Byte 0x00#8

/-! ### Bits on the two lines (R165, R201) -/

/-- A byte on either line: a start bit, the 8 data bits least significant first, no parity, and a stop bit. A start bit
is low and a stop bit high, as on every such line (PRESUMED, log 6). -/
def byteBits (b : Byte) : List Bool := false :: (List.range 8).map b.getLsbD ++ [true]

def lineBits (bytes : List Byte) : List Bool := (bytes.map byteBits).flatten

/-! ### Chain frames as bytes (11, section 11.7) -/

/-- The bytes of a frame in their order on the line (11, section 11.7). -/
def ChainFrame.bytes (f : ChainFrame) : List Byte := [f.addr, f.ty, f.len] ++ f.payload ++ [f.crc]

/-- The bits of a frame on the line, each byte least significant bit first (R201). -/
def ChainFrame.bits (f : ChainFrame) : List Bool := lineBits f.bytes

/-! ### Host frames as bytes (R165) -/

/-- Greatest body length (R165). -/
def maxBody : Nat := 120

/-- SYNC, the byte a frame starts with (R165). -/
def syncByte : Byte := 0xC5

/-- The CRC of a frame, over LEN, KIND and BODY (R165). -/
def HostFrame.crc (f : HostFrame) : BitVec 16 :=
  crc16 (BitVec.ofNat 8 f.body.length :: f.kind :: f.body)

/-- A frame on the line: SYNC, LEN, KIND, BODY, and the CRC with its high byte first (R165). -/
def HostFrame.bytes (f : HostFrame) : List Byte :=
  [syncByte, BitVec.ofNat 8 f.body.length, f.kind] ++ f.body ++
    [(f.crc >>> 8).setWidth 8, f.crc.setWidth 8]

/-- What the receiver makes of a frame whose SYNC has been taken (R166), given the bytes that follow without a gap:
the command that ends the frame, and the bytes the receiver hunts in next. Absent while bytes are missing. -/
def receiveFrame (bytes : List Byte) : Option (Instr × List Byte) :=
  match bytes with
  | [] => none
  | len :: rest =>
    if maxBody < len.toNat then some (.hostFrameOversize, rest)
    else
      match rest with
      | [] => none
      | kind :: more =>
        let body := more.take len.toNat
        match more.drop len.toNat with
        | hi :: lo :: after =>
          if crc16 (len :: kind :: body) = (hi.setWidth 16 <<< 8) ||| lo.setWidth 16 then
            some (.hostFrameValid kind body, after)
          else some (.hostFrameBadCrc, after)
        | _ => none

/-- The receiver hunting for SYNC: every other byte is passed over without count (R166). -/
def hunt : List Byte → Option (Instr × List Byte)
  | [] => none
  | b :: rest => if b = syncByte then receiveFrame rest else hunt rest

/-! ### Kind codes and body lengths (R198, R199) -/

/-- The command a host frame is when it is taken for processing (R199): the request or tell of its kind, or
UNKNOWN_KIND for every code that is none of the host's. -/
def commandOfFrame (f : HostFrame) : Instr :=
  match f.kind.toNat with
  | 0x01 => .identify f.body
  | 0x02 => .status f.body
  | 0x03 => .census f.body
  | 0x04 => .readChain f.body
  | 0x05 => .readLoads f.body
  | 0x06 => .readFaults f.body
  | 0x07 => .display f.body
  | 0x08 => .setParam f.body
  | 0x09 => .readParam f.body
  | 0x0A => .writeRule f.body
  | 0x0B => .readRule f.body
  | 0x0C => .relearn f.body
  | 0x0D => .storeConfig f.body
  | 0x0E => .standby f.body
  | 0x0F => .restart f.body
  | 0x10 => .clearWake f.body
  | 0x11 => .serviceEnter f.body
  | 0x12 => .serviceLeave f.body
  | 0x13 => .serviceReset f.body
  | 0x14 => .commissionBegin f.body
  | 0x15 => .commissionConfirm f.body
  | 0x16 => .readCapture f.body
  | 0x17 => .releaseBegin f.body
  | 0x18 => .releaseConfirm f.body
  | 0x19 => .clearFaults f.body
  | 0x20 => .function f.body
  | 0x21 => .clusterReport f.body
  | _ => .unknownKind f.kind f.body

/-- The frame a host record is, none for a command that is no host record (R198). -/
def frameOfCommand (i : Instr) : Option HostFrame :=
  match i with
  | .identify b => some { kind := 0x01, body := b }
  | .status b => some { kind := 0x02, body := b }
  | .census b => some { kind := 0x03, body := b }
  | .readChain b => some { kind := 0x04, body := b }
  | .readLoads b => some { kind := 0x05, body := b }
  | .readFaults b => some { kind := 0x06, body := b }
  | .display b => some { kind := 0x07, body := b }
  | .setParam b => some { kind := 0x08, body := b }
  | .readParam b => some { kind := 0x09, body := b }
  | .writeRule b => some { kind := 0x0A, body := b }
  | .readRule b => some { kind := 0x0B, body := b }
  | .relearn b => some { kind := 0x0C, body := b }
  | .storeConfig b => some { kind := 0x0D, body := b }
  | .standby b => some { kind := 0x0E, body := b }
  | .restart b => some { kind := 0x0F, body := b }
  | .clearWake b => some { kind := 0x10, body := b }
  | .serviceEnter b => some { kind := 0x11, body := b }
  | .serviceLeave b => some { kind := 0x12, body := b }
  | .serviceReset b => some { kind := 0x13, body := b }
  | .commissionBegin b => some { kind := 0x14, body := b }
  | .commissionConfirm b => some { kind := 0x15, body := b }
  | .readCapture b => some { kind := 0x16, body := b }
  | .releaseBegin b => some { kind := 0x17, body := b }
  | .releaseConfirm b => some { kind := 0x18, body := b }
  | .clearFaults b => some { kind := 0x19, body := b }
  | .function b => some { kind := 0x20, body := b }
  | .clusterReport b => some { kind := 0x21, body := b }
  | .unknownKind k b => some { kind := k, body := b }
  | .powerOn | .resetLineAssert | .resetLineRelease | .restartReset | .storeLoadDone | .hostFrameValid _ _
  | .hostFrameOversize | .hostFrameBroken | .hostFrameBadCrc | .frameSent | .fwStale | .linkSilent | .scan _
  | .supplyWindowComplete | .zeroWindowComplete _ | .settleExpiry _ | .judgementInstant _ | .standbyScan _
  | .cadenceExpiry _ | .rollSend | .assignSend | .visitStart | .repoll | .chainFrameSent | .chainAnswerComplete _
  | .chainAnswerAbandon | .answerWindowClose | .strayChainFrame _ | .visitTimeLimit | .pollCycleEnd
  | .standbyPollCycle | .holdoffExpiry | .agingSweep | .lingerExpiry _ | .reconcileExpiry | .captureWindowExpiry
  | .releaseTimerExpiry | .serviceLineFall | .serviceLineRise | .storeWriteEnd _ => none

/-- The body length laid down for a host kind, where the kind fixes it (R199); absent for CLUSTER-REPORT, whose body
fixes it, and for every code that is none of the host's. -/
def bodyLength (kind : Byte) : Option Nat :=
  match kind.toNat with
  | 0x01 => some 0
  | 0x02 => some 0
  | 0x03 => some 0
  | 0x04 => some 0
  | 0x05 => some 1
  | 0x06 => some 1
  | 0x07 => some 0
  | 0x08 => some 4
  | 0x09 => some 2
  | 0x0A => some 16
  | 0x0B => some 1
  | 0x0C => some 2
  | 0x0D => some 0
  | 0x0E => some 0
  | 0x0F => some 0
  | 0x10 => some 1
  | 0x11 => some 0
  | 0x12 => some 0
  | 0x13 => some 0
  | 0x14 => some 2
  | 0x15 => some 7
  | 0x16 => some 0
  | 0x17 => some 1
  | 0x18 => some 7
  | 0x19 => some 0
  | 0x20 => some 2
  | _ => none

/-- The kind of the CLUSTER-REPORT tell (R199). -/
def clusterReportKind : Byte := 0x21

/-- A request or tell kind of the host (R199). -/
def isHostKind (kind : Byte) : Bool := (bodyLength kind).isSome || kind = clusterReportKind

/-- The LENGTH test of R168 and R199: a CLUSTER-REPORT's length follows from the triple count in its first byte, and
a count above 8 fails. -/
def lengthGood (f : HostFrame) : Bool :=
  match bodyLength f.kind with
  | some n => f.body.length = n
  | none =>
    match f.body with
    | [] => false
    | count :: _ => count.toNat ≤ 8 && f.body.length = 2 + 2 * count.toNat

/-! ### Table words -/

/-- No row of spec/opcode_table.json gives bits, so no word spells a command. -/
def decodeTableWord (_nbits _w : Nat) : Option Instr := none

end Sys2Proof
end

