-- ==== Sys2Proof/Config.lean ====
section
/-!
DEFINITION. What an implementation of the TK740 fixes and the manual does not (opaque constants), and the fixed
durations and bounds the manual states.
-/
namespace Sys2Proof

/-- The part's revision number, which IDENTIFY reports (R175). The manual gives no value, which is free (log 7), and
neither a width nor a range: the model takes one byte (PRESUMED, log 6). -/
opaque Config.revision : Byte

/-- The part's store format number (R175, R181). The manual gives no value, which is free (log 7), and neither a width
nor a range: the model takes one byte, in IDENTIFY's reply and under a block's CRC (PRESUMED, log 6). -/
opaque Config.storeFormat : Byte

/-- When a slot becomes LOST in STANDBY, whether the COMPOSITION report is taken before the FAULT report. R193
describes both orders and fixes neither: free, a fresh choice for each value of State.freeCount. Log 8. -/
opaque Config.compositionFirst : Nat → Bool

/-- How far the CRC-16 of a store block whose write failed or was cut short lies from the right one, by the right one.
R183 and R184 say only that it does not match: free, but for 0 (`spoiledCrc`). Log 12. -/
opaque Config.crcDamage : BitVec 16 → BitVec 16

/-- The part code (R175), as the characters "TK740". -/
def partCode : List Byte := [0x54, 0x4B, 0x37, 0x34, 0x30]

/-- Milliseconds as clock units: the clock counts microseconds. DESIGN CHOICE, log 1. -/
def ms (n : Nat) : Nat := n * 1000

/-- Time on the host's line of one byte, ten bit times at 115,200 bit/s, in whole microseconds (R165). -/
def hostByteTime : Nat := 10 * 1000000 / 115200
/-- Greatest gap between two bytes of one frame (R166). -/
def frameGap : Nat := ms 5
/-- Scan period (R1). -/
def scanPeriod : Nat := ms 2
/-- Standby scan period (R15). -/
def standbyScanPeriod : Nat := ms 1000
/-- Idle before a frame of the part on the chain line (R18). -/
def chainIdle : Nat := ms 3
/-- Answer window (R18). -/
def answerWindow : Nat := ms 10
/-- Line break (R19). -/
def lineBreakTime : Nat := ms 20
/-- Hold-off timer (R23). -/
def holdoffTime : Nat := ms 10000
/-- Gap between the last visit of a cycle and the next cycle (R35). -/
def cycleGap : Nat := ms 21
/-- Visit limit (R36). -/
def visitLimit : Nat := ms 40
/-- Delay of a re-poll after BUSY (R36). -/
def repollDelay : Nat := ms 3
/-- Greatest age of a qualifying report (R40). -/
def reportMaxAge : Nat := ms 300
/-- First standby poll cycle after standby entry (R41). -/
def firstStandbyCycle : Nat := ms 9750
/-- Standby poll cycle period (R41). -/
def standbyCyclePeriod : Nat := ms 10000
/-- Freshness period of the Function Word (R171). -/
def freshPeriod : Nat := ms 500
/-- Silence period of the host link (R172). -/
def silencePeriod : Nat := ms 1000
/-- Capture window timer (R155). -/
def captureTime : Nat := ms 120000
/-- Release timer (R161). -/
def releaseTime : Nat := ms 5000
/-- Aging sweep period of ACTIVE time (R191). -/
def agingPeriod : Nat := ms 3600000

/-- The voltage window, mV (R11, R83). -/
def voltageLow : Nat := 16000
def voltageHigh : Nat := 32000
/-- Greatest sample current, adjusted baseline and pool expectation, mA (R2, R87, R94). -/
def currentMax : Nat := 30000
/-- Greatest zero reference, mA (R8). -/
def zeroMax : Nat := 500
/-- Cap of a learned or captured nominal, mA (R56, R156). -/
def nominalMax : Nat := 20000

/-- A voltage outside 16000 to 32000 mV (R11, R83). -/
def outOfWindow (v : Nat) : Bool := v < voltageLow || voltageHigh < v

end Sys2Proof
end

