-- ==== Sys2Proof/Machine/Data.lean ====
section
/-!
DEFINITION. The data of the TK740: the named values, one structure for each of the ten blocks (00, Blocks of the TK740),
the records the part sends and what its store holds. The machine's State is put together from them in State.lean.
-/
namespace Sys2Proof.Machine

/-! ### Named values (R198 codes them for the host link) -/

inductive PowerState where
  | start
  | active
  | standby
deriving DecidableEq, Repr

inductive ResetCause where
  | powerOn
  | resetLine
  | restart
deriving DecidableEq, Repr

inductive Phase where
  | waiting
  | offSettling
  | offSettled
  | onSettling
  | onSettled
  | parkedOn
  | parkedOff
deriving DecidableEq, Repr

inductive LampClass where
  | filament
  | regulated
deriving DecidableEq, Repr

inductive SlotState where
  | present
  | stale
  | lost
deriving DecidableEq, Repr

inductive BaselineState where
  | unknown
  | learning
  | known
deriving DecidableEq, Repr

inductive Lock where
  | opened
  | commissioned
deriving DecidableEq, Repr

inductive Sense where
  | equal
  | different
deriving DecidableEq, Repr

inductive Action where
  | judge
  | hold
  | widen
  | cadence
deriving DecidableEq, Repr

/-- Outcome and record kinds (R98, R105). -/
inductive Kind where
  | outage
  | unitLost
  | overload
  | disagree
  | cadence
  | nodeLost
deriving DecidableEq, Repr

inductive RecordState where
  | suspect
  | active
  | healing
deriving DecidableEq, Repr

inductive DisplayState where
  | new
  | acked
  | resolved
deriving DecidableEq, Repr

inductive MirrorState where
  | inStep
  | pending
  | diverged
deriving DecidableEq, Repr

inductive Telltale where
  | off
  | steady
  | flash
deriving DecidableEq, Repr

inductive ServiceState where
  | idle
  | capturing
  | writing
  | releasePending
deriving DecidableEq, Repr

inductive ServiceOp where
  | commission
  | release
deriving DecidableEq, Repr

inductive ServiceResult where
  | done
  | sequence
  | aborted
  | mismatch
  | incomplete
  | store
deriving DecidableEq, Repr

inductive StoreBlock where
  | config
  | rules
  | loadsA
  | loadsB
deriving DecidableEq, Repr

inductive WakeCause where
  | fault
  | composition
  | supply
deriving DecidableEq, Repr

inductive HeldCause where
  | none
  | census
  | voltage
  | rule
deriving DecidableEq, Repr

inductive PoolResult where
  | absent
  | good
  | outage
  | unitLost
  | overload
  | preempted
  | notMade
deriving DecidableEq, Repr

/-- The slot 1 to 6 or the REMAINDER a LAMP-family outcome is attributed to (00, Subject). -/
inductive Subject where
  | slot (n : Nat)
  | remainder
deriving DecidableEq, Repr

/-- Refusal reasons of the host link (R168). -/
inductive Reason where
  | unknownKind
  | length
  | range
  | busy
  | notReady
  | notInService
  | pin
  | sequence
  | locked
  | state
  | errorPending
deriving DecidableEq, Repr

/-- The causes of the wake mask and of the wake flags (R192, R193). -/
structure WakeSet where
  fault : Bool
  composition : Bool
  supply : Bool
deriving DecidableEq, Repr

def WakeSet.none : WakeSet := { fault := false, composition := false, supply := false }
def WakeSet.all : WakeSet := { fault := true, composition := true, supply := true }

/-! ### Parameters (09, section 9.7) -/

structure Params where
  gain : PerCircuit Nat
  settle : PerCircuit Nat
  tAbs : PerCircuit Nat
  tPm : PerCircuit Nat
  tOver : PerCircuit Nat
  severity : PerCircuit Nat
  legacyClass : PerCircuit LampClass
  window : Nat
  interval : Nat
  learnCount : Nat
  confirm : Nat
  heal : Nat
  linger : Nat
  reconcile : Nat
  wakeMask : WakeSet
deriving DecidableEq, Repr

/-- The default of every parameter (09, section 9.7). -/
def Params.default : Params :=
  { gain := PerCircuit.fill 7325
    settle := PerCircuit.fill 40
    tAbs := PerCircuit.fill 40
    tPm := PerCircuit.fill 150
    tOver := PerCircuit.fill 300
    severity := { c0 := 7, c1 := 7, c2 := 6, c3 := 5, c4 := 5, c5 := 3, c6 := 3, c7 := 2 }
    legacyClass := PerCircuit.fill .filament
    window := 8
    interval := 100
    learnCount := 3
    confirm := 3
    heal := 5
    linger := 60
    reconcile := 2000
    wakeMask := WakeSet.all }

/-! ### Sense Front End (01) -/

/-- An averaging window of one circuit (R4). -/
structure Window where
  len : Nat
  sumCurrent : Nat
  sumSupply : Nat
  count : Nat
  saturated : Bool
deriving DecidableEq, Repr

/-- The supply window (R3). -/
structure SupplyWindow where
  len : Nat
  sum : Nat
  count : Nat
deriving DecidableEq, Repr

/-- What the SFE holds for one circuit (R5, R8, R11). `done` is a full window with the moment of its completion
(R1), until the completion is taken. -/
structure CircuitSense where
  phase : Phase
  settleTimer : Option Nat
  window : Option Window
  done : Option (Window × Nat)
  nextStart : Option Nat
  settleEnd : Option Nat
  zero : Nat
  senseSat : Bool
  leak : Bool
deriving DecidableEq, Repr

structure Sfe where
  circuits : PerCircuit CircuitSense
  supplyWindow : Option SupplyWindow
  supplyDone : Option (SupplyWindow × Nat)
  supplyReading : Nat
  voltage : Bool
  voltageMark : Option Nat
  nextScan : Nat
  standbyScan : Nat
deriving DecidableEq, Repr

/-! ### Chain Line Controller (02) -/

/-- The content of a REPORT (02, section 2.10; R201). -/
structure Report where
  identity : Identity
  energized : CircuitSet
  current : PerCircuit Nat
  cls : PerCircuit LampClass
  outage : PerCircuit (BitVec 4)
deriving DecidableEq, Repr

/-- A slot's latest report with its time of arrival (R39). -/
structure LatestReport where
  report : Report
  arrival : Nat
deriving DecidableEq, Repr

/-- An entry of the chain table; its slot number is its place in the table, counted from 1 (02, section 2.3). -/
structure Slot where
  identity : Identity
  lamps : PerCircuit Nat
  state : SlotState
  misses : Nat
  latest : Option LatestReport
deriving DecidableEq, Repr

/-- An entry of the working table of a running census (R21). -/
structure Placed where
  identity : Identity
  lamps : PerCircuit Nat
deriving DecidableEq, Repr

/-- The working table and running counts of a census (R21). -/
structure CensusRun where
  table : List Placed
  answered : Nat
  silent : Nat
  duplicates : Nat
  beyond : Nat
deriving DecidableEq, Repr

/-- The counts of the last completed census (R33). -/
structure CensusCounts where
  enumerated : Nat
  retained : Nat
  duplicates : Nat
  beyond : Nat
deriving DecidableEq, Repr

/-- What R27 chooses for an answering node. -/
inductive Placement where
  | slot
  | duplicate
  | beyondSix
deriving DecidableEq, Repr

/-- An ASSIGN to be sent or on the line: its choice, and whether it is the repeat (R28). -/
structure Assign where
  node : Placed
  choice : Placement
  slot : Nat
  repeated : Bool
deriving DecidableEq, Repr

/-- The census frame due next (R26, R28). -/
inductive ChainTask where
  | roll
  | assign (a : Assign)
deriving DecidableEq, Repr

/-- The frame of the exchange on the line (R18). -/
inductive Exchange where
  | roll
  | assign (a : Assign)
  | poll
deriving DecidableEq, Repr

/-- The chain line: idle, a frame of the part going out until its end, or the answer window open until its close. -/
inductive Line where
  | idle
  | sending (x : Exchange) (ends : Nat)
  | window (x : Exchange) (closes : Nat)
deriving DecidableEq, Repr

/-- A visit in progress (R36). -/
structure Visit where
  slot : Nat
  limit : Nat
  repolls : Nat
  repollDue : Option Nat
deriving DecidableEq, Repr

/-- A poll cycle in progress (R35, R41). `pos` counts the slots the cycle has dealt with, `start` is the earliest
moment of its next visit (the gap of R35), `ended` the end of its last visit, `closing` says that it ends with the
visit in progress (R41). -/
structure PollCycle where
  pos : Nat
  start : Nat
  ended : Option Nat
  closing : Bool
deriving DecidableEq, Repr

structure Clc where
  table : List Slot
  census : Option CensusRun
  censusNumber : Nat
  coupling : Bool
  holdoff : Option Nat
  pendingTrigger : Bool
  cycleCounter : Nat
  counts : CensusCounts
  task : Option ChainTask
  line : Line
  idleFrom : Nat
  lineBreak : Option Nat
  visit : Option Visit
  cycle : Option PollCycle
  standbyCycle : Nat
deriving DecidableEq, Repr

/-! ### Load Table (03) -/

structure Baseline where
  state : BaselineState
  cls : LampClass
  nominal : Nat
  vref : Nat
deriving DecidableEq, Repr

/-- An UNKNOWN baseline holds nominal 0 and V_ref 24000; its class is FILAMENT in a unit entry (R45). -/
def Baseline.unknown : Baseline := { state := .unknown, cls := .filament, nominal := 0, vref := 24000 }

/-- A learning record (R54); empty when count is 0. An empty one holds 0 in its other fields (DESIGN CHOICE, log 43). -/
structure LearningRecord where
  count : Nat
  first : Nat
  sumValue : Nat
  sumVolt : Nat
deriving DecidableEq, Repr

def LearningRecord.empty : LearningRecord := { count := 0, first := 0, sumValue := 0, sumVolt := 0 }

/-- One circuit of an entry: its baseline and its learning record. -/
structure LoadCell where
  base : Baseline
  learn : LearningRecord
deriving DecidableEq, Repr

def LoadCell.unknown : LoadCell := { base := Baseline.unknown, learn := LearningRecord.empty }

inductive EntryKey where
  | unit (id : Identity)
  | remainder (signature : List Identity)
deriving DecidableEq, Repr

structure Entry where
  key : EntryKey
  age : Nat
  lock : Lock
  inComposition : Bool
  cells : PerCircuit LoadCell
deriving DecidableEq, Repr

/-- `signatureTrack` is absent until the first census completion gives the signature a tracking record (R46). -/
structure Ldt where
  entries : List (Option Entry)
  slotTrack : List (Option Nat)
  signatureTrack : Option (Option Nat)
  loadsFull : Bool
deriving DecidableEq, Repr

/-! ### Judgement Engine (04, 05) -/

structure Rule where
  enabled : Bool
  circuits : CircuitSet
  mask : FunctionWord
  value : FunctionWord
  sense : Sense
  head : Nat
  members : MemberSet
  action : Action
  param : Nat
deriving DecidableEq, Repr

/-- A disabled default rule, its own head (R75). -/
def Rule.blank (n : Nat) : Rule :=
  { enabled := false, circuits := 0, mask := 0, value := 0, sense := .equal, head := n, members := 0,
    action := .judge, param := 0 }

/-- An enabled default head with an empty member set and sense EQUAL (R75). -/
def Rule.head0 (n : Nat) (circuits : CircuitSet) (mask value : FunctionWord) (action : Action) (param : Nat) : Rule :=
  { enabled := true, circuits := circuits, mask := mask, value := value, sense := .equal, head := n, members := 0,
    action := action, param := param }

/-- The default rules (R75): items 8 STALK-L, 9 STALK-R, 10 HAZARD, 11 IGNITION, 12 PARK, 15 CRANK. -/
def defaultRules : List Rule :=
  [Rule.head0 0 0xFF 0x8000 0x8000 .hold 0,
   Rule.head0 1 0x01 0x0100 0x0100 .cadence 800,
   Rule.head0 2 0x02 0x0200 0x0200 .cadence 800,
   Rule.head0 3 0x03 0x0400 0x0400 .cadence 800,
   Rule.head0 4 0x18 0x1800 0x1000 .widen 2]
  ++ (List.range 27).map fun k => Rule.blank (k + 5)

/-- An armed watch: its period in ms and the moment its countdown runs out (R76). -/
structure Arming where
  period : Nat
  expires : Nat
deriving DecidableEq, Repr

structure Watch where
  armed : Option Arming
  load : Nat
deriving DecidableEq, Repr

/-- The judgement summary of one circuit (R85). `factor` is 1 unless the action is WIDEN. -/
structure Summary where
  time : Nat
  mean : Nat
  zero : Nat
  volts : Nat
  saturated : Bool
  parked : Bool
  measured : Nat
  action : Action
  factor : Nat
  held : HeldCause
  residual : Option Int
  expectation : Option Nat
  pool : PoolResult
  poolSubject : Option Subject
deriving DecidableEq, Repr

structure Jge where
  rules : List Rule
  watches : PerCircuit Watch
  summaries : PerCircuit (Option Summary)
deriving DecidableEq, Repr

/-! ### Fault Table (06) -/

inductive FaultKey where
  | lamp (subject : Subject) (c : Circuit)
  | disagree (c : Circuit)
  | cadence (c : Circuit)
  | nodeLost (slot : Nat)
deriving DecidableEq, Repr

/-- A fault record (R105). -/
structure FaultRecord where
  key : FaultKey
  identity : Option Identity
  kind : Kind
  state : RecordState
  suspect : Nat
  heal : Nat
  sequence : Option (BitVec 32)
  acked : Bool
  entryId : Option Nat
  lastExpected : Nat
  lastDeficit : Int
deriving DecidableEq, Repr

structure Flt where
  records : List (Option FaultRecord)
  activation : BitVec 32
  saturated : Bool
  fastLeft : Bool
  fastRight : Bool
deriving DecidableEq, Repr

/-! ### Display Reconciler (07) -/

/-- A timer that a change of power state stops and resumes: the moment it runs out, or what remains of it (R133). -/
inductive Countdown where
  | running (deadline : Nat)
  | paused (remaining : Nat)
deriving DecidableEq, Repr

/-- An entry of the display list (R127). -/
structure DisplayEntry where
  id : Nat
  kind : Kind
  circuit : Option Circuit
  subject : Option Subject
  identity : Option Identity
  severity : Nat
  state : DisplayState
  version : Nat
  sequence : Nat
  linger : Option Countdown
deriving DecidableEq, Repr

/-- One triple of a CLUSTER-REPORT (R140). -/
structure Triple where
  id : Nat
  version : Nat
  acked : Bool
deriving DecidableEq, Repr

/-- The content of the last CLUSTER-REPORT taken (R139). -/
structure MirrorContent where
  triples : List Triple
  overflow : Nat
deriving DecidableEq, Repr

structure Dsr where
  list : List DisplayEntry
  overflow : Nat
  idCounter : Nat
  mirror : MirrorState
  content : MirrorContent
  reconcile : Option Nat
  staleAcks : Nat
  ttfb : Bool
deriving DecidableEq, Repr

/-- The telltale summary (R136). -/
structure Telltales where
  left : Telltale
  right : Telltale
  general : Telltale
deriving DecidableEq, Repr

/-! ### Service Controller (08) -/

structure Sticky where
  sequence : Bool
  aborted : Bool
  mismatch : Bool
  incomplete : Bool
  store : Bool
deriving DecidableEq, Repr

def Sticky.none : Sticky :=
  { sequence := false, aborted := false, mismatch := false, incomplete := false, store := false }

/-- What a CAPTURED record holds (R156). -/
structure Captured where
  nominal : Nat
  cls : LampClass
  vref : Nat
deriving DecidableEq, Repr

/-- A capture record; CAPTURED when `captured` is present, WAITING otherwise (R156). Its first value and sums mean
something from count 1 on; with count 0 they are 0 (DESIGN CHOICE, log 43). -/
structure CaptureRecord where
  circuit : Circuit
  count : Nat
  first : Nat
  sumValue : Nat
  sumVolt : Nat
  captured : Option Captured
deriving DecidableEq, Repr

/-- A capture (R155). `identity` is the slot's unit identity, or the signature's identity count for REMAINDER. -/
structure Capture where
  target : Subject
  identity : Identity
  index : Nat
  circuits : CircuitSet
  records : List CaptureRecord
deriving DecidableEq, Repr

/-- A pending release (R161). -/
structure Release where
  index : Nat
  identity : Identity
  expires : Nat
deriving DecidableEq, Repr

/-- What a SERVICE-DONE names: a commissioning's target or a release's index (R153). -/
inductive ServiceTarget where
  | subject (s : Subject)
  | index (n : Nat)
deriving DecidableEq, Repr

/-- A commissioning or release write (R150). `begun` says that the block's write the operation asked for has
begun; `aborted` that service mode turned off during it (R152). -/
structure ServiceWrite where
  op : ServiceOp
  target : ServiceTarget
  index : Nat
  block : StoreBlock
  begun : Bool
  aborted : Bool
deriving DecidableEq, Repr

structure Svc where
  line : Bool
  mode : Bool
  state : ServiceState
  sticky : Sticky
  capture : Option Capture
  captureTimer : Option Nat
  release : Option Release
  write : Option ServiceWrite
deriving DecidableEq, Repr

/-! ### Wake record (10) -/

/-- The wake record: one cause with its details (R193). -/
structure WakeRecord where
  cause : WakeCause
  circuit : Option Circuit
  slot : Option Nat
  identity : Option Identity
deriving DecidableEq, Repr

/-! ### Records the part sends (09, 11) -/

/-- A status matter of R177. -/
inductive Matter where
  | senseSat (c : Circuit)
  | leak (c : Circuit)
  | voltage
  | loadsFull
  | saturated
  | storeFault (b : StoreBlock)
  | fwStale
  | fastLeft
  | fastRight
  | mirror
  | link
deriving DecidableEq, Repr

/-- STORE-FAULT, one flag for each block (R182). -/
structure StoreFaults where
  config : Bool
  rules : Bool
  loadsA : Bool
  loadsB : Bool
deriving DecidableEq, Repr

def StoreFaults.none : StoreFaults := { config := false, rules := false, loadsA := false, loadsB := false }

/-- The values a STATUS-CHANGE carries beside its change set (R178). -/
structure StatusValues where
  senseSat : PerCircuit Bool
  leak : PerCircuit Bool
  voltage : Bool
  loadsFull : Bool
  saturated : Bool
  storeFault : StoreFaults
  fwStale : Bool
  fastLeft : Bool
  fastRight : Bool
  mirror : MirrorState
  silent : Bool
  ttfb : Bool
  power : PowerState
deriving DecidableEq, Repr

/-- One slot in a READ-CHAIN reply; the report carries its age in ms (R42). -/
structure SlotReport where
  slot : Nat
  identity : Identity
  lamps : PerCircuit Nat
  state : SlotState
  misses : Nat
  report : Option (Report × Nat)
deriving DecidableEq, Repr

/-- The content of a READ-CHAIN reply (R42). -/
structure ChainReport where
  number : Nat
  running : Bool
  holdoff : Bool
  pendingTrigger : Bool
  counts : CensusCounts
  slots : List SlotReport
deriving DecidableEq, Repr

/-- One circuit in a READ-LOADS reply (R60). -/
structure CellReport where
  state : BaselineState
  cls : LampClass
  nominal : Nat
  vref : Nat
  count : Nat
deriving DecidableEq, Repr

/-- An entry in a READ-LOADS reply (R60). -/
structure EntryReport where
  key : EntryKey
  age : Nat
  lock : Lock
  inComposition : Bool
  cells : PerCircuit CellReport
deriving DecidableEq, Repr

/-- The role of a rule (R65): MEMBER names its head. -/
inductive Role where
  | head
  | member (h : Nat)
  | orphan
deriving DecidableEq, Repr

/-- The set of a head in a READ-RULE reply (R74): the rules that break it, none when INTACT, and the circuits of
its circuit set for which it matches now. -/
structure SetReport where
  breakers : List Nat
  matching : CircuitSet
deriving DecidableEq, Repr

/-- One capture record in a READ-CAPTURE reply: the fields R164 lists. -/
structure RecordReport where
  circuit : Circuit
  count : Nat
  first : Nat
  captured : Option Captured
deriving DecidableEq, Repr

/-- The capture in a READ-CAPTURE reply (R164). -/
structure CaptureShown where
  target : Subject
  identity : Identity
  index : Nat
  circuits : CircuitSet
  records : List RecordReport
deriving DecidableEq, Repr

/-- The content of a READ-CAPTURE reply (R164); the remaining times of the two timers in ms. -/
structure CaptureReport where
  mode : Bool
  state : ServiceState
  sticky : Sticky
  window : Option Nat
  release : Option Nat
  capture : Option CaptureShown
deriving DecidableEq, Repr

/-- The content of a DISPLAY reply (R138); `remaining` is that of the reconcile timer, in ms. -/
structure DisplayReport where
  mirror : MirrorState
  content : MirrorContent
  remaining : Option Nat
  staleAcks : Nat
  idCounter : Nat
  length : Nat
  overflow : Nat
deriving DecidableEq, Repr

/-- A record the part sends; Layout.lean gives its bytes. Replies that go out in parts carry their part number, the
part count and the content bytes of the part (R169, R200). -/
inductive TxRecord where
  | refused (kind : Byte) (reason : Reason)
  | ok (kind : Byte)
  | identify (part : List Byte) (revision format : Byte) (power : PowerState) (mode : Bool)
  | statusPart (part count : Nat) (content : List Byte)
  | chainPart (part count : Nat) (content : List Byte)
  | loads (count : Nat) (entry : Option EntryReport)
  | faults (count : Nat) (activation : BitVec 32) (saturated left right : Bool) (record : Option FaultRecord)
  | display (content : DisplayReport)
  | setParam (id circuit value : Nat) (clamped : Bool)
  | readParam (id circuit value : Nat) (differs : Bool)
  | writeRule (number : Nat) (rule : Rule) (clamped : Bool)
  | readRule (number : Nat) (rule : Rule) (role : Role) (set : Option SetReport)
  | relearn (index : Nat) (circuits : CircuitSet)
  | clearWake (flags : WakeSet) (record : Option WakeRecord)
  | commissionBegin (index : Nat)
  | confirm (op : ServiceOp) (refusal : Option ServiceResult)
  | capturePart (part count : Nat) (content : List Byte)
  | releaseBegin (remainder : Bool) (identity : Identity)
  | clearFaults (count : Nat)
  | snapshot (entries : List DisplayEntry) (overflow : Nat) (telltales : Telltales)
  | statusChange (changes : List Matter) (values : StatusValues)
  | censusDone (number : Nat) (counts : CensusCounts)
  | serviceDone (op : ServiceOp) (target : ServiceTarget) (result : ServiceResult) (writeGood : Option Bool)
  | ready (cause : ResetCause) (fault : StoreFaults) (units remainders : Nat) (format : Byte)
deriving DecidableEq, Repr

/-! ### Host Link Controller (09) -/

/-- A frame in the input buffer or in processing: whether it cancelled a standby entry (R190) and whether it woke the
part (R195). -/
structure Waiting where
  frame : HostFrame
  cancelled : Bool
  woke : Bool
deriving DecidableEq, Repr

/-- The receiver: hunting for SYNC, or a frame being received, with the bytes taken behind its SYNC and the moment
the last byte taken ended (R166, R180). -/
inductive Receiver where
  | hunting
  | receiving (taken : List Byte) (lastEnd : Nat)
deriving DecidableEq, Repr

/-- A byte on the host's line toward the part: the moment its start bit begins, its eight data bits, and whether its
stop bit is there (R165, R166). -/
structure RxByte where
  starts : Nat
  value : Byte
  stop : Bool
deriving DecidableEq, Repr

/-- `wire` is the model's own: the bytes the host has put on the line and the receiver has not yet taken, oldest first
(log 18). -/
structure Hlc where
  wire : List RxByte
  receiver : Receiver
  processing : Option Waiting
  buffer : Option Waiting
  sending : Option TxRecord
  queue : List TxRecord
  word : FunctionWord
  previous : FunctionWord
  lastTell : Nat
  stale : Bool
  firstTell : Bool
  silent : Bool
  silence : Option Nat
  oversize : Nat
  broken : Nat
  badCrc : Nat
  overrun : Nat
  changes : List Matter
deriving DecidableEq, Repr

/-! ### Store Controller (10) -/

/-- An entry as a LOADS block holds it: no learning record, no composition mark (R61, R181). -/
structure StoredEntry where
  key : EntryKey
  age : Nat
  lock : Lock
  baselines : PerCircuit Baseline
deriving DecidableEq, Repr

/-- A block's store copy: its content, the store format number it was written with, and a CRC-16 (R181). -/
structure Copy (α : Type) where
  content : α
  format : Byte
  crc : BitVec 16
deriving DecidableEq, Repr

structure Stc where
  config : Copy Params
  rules : Copy (List Rule)
  loadsA : Copy (List (Option StoredEntry))
  loadsB : Copy (List (Option StoredEntry))
  queue : List StoreBlock
  writing : Option StoreBlock
  fault : StoreFaults
deriving DecidableEq, Repr

/-! ### Power Controller (10) -/

/-- `agingCount` is the ACTIVE time counted up to `agingSince`, the moment the count last began to run; absent while
the count is stopped (R191). -/
structure Pwc where
  power : PowerState
  held : Bool
  cause : ResetCause
  wakeFlags : WakeSet
  wakeRecord : Option WakeRecord
  lowScans : Nat
  wake : Bool
  agingCount : Nat
  agingSince : Option Nat
  standbyEntry : Bool
  restartPending : Bool
deriving DecidableEq, Repr

end Sys2Proof.Machine
end

