-- ==== Sys2Proof/Machine/Codes.lean ====
section
/-!
DEFINITION. How values become bytes: the codes and field encodings of the host link (R198), the bytes a store block
holds its content in, and the block's format number and CRC-16 (R181).
-/
namespace Sys2Proof.Machine

/-! ### Codes (R198) -/

def PowerState.code (p : PowerState) : Nat := match p with
  | .start => 0
  | .active => 1
  | .standby => 2

def ResetCause.code (c : ResetCause) : Nat := match c with
  | .powerOn => 1
  | .resetLine => 2
  | .restart => 3

def Phase.code (p : Phase) : Nat := match p with
  | .waiting => 0
  | .offSettling => 1
  | .offSettled => 2
  | .onSettling => 3
  | .onSettled => 4
  | .parkedOn => 5
  | .parkedOff => 6

def Kind.code (k : Kind) : Nat := match k with
  | .outage => 1
  | .unitLost => 2
  | .overload => 3
  | .disagree => 4
  | .cadence => 5
  | .nodeLost => 6

def DisplayState.code (d : DisplayState) : Nat := match d with
  | .new => 0
  | .acked => 1
  | .resolved => 2

def Telltale.code (t : Telltale) : Nat := match t with
  | .off => 0
  | .steady => 1
  | .flash => 2

def MirrorState.code (m : MirrorState) : Nat := match m with
  | .inStep => 0
  | .pending => 1
  | .diverged => 2

def ServiceState.code (s : ServiceState) : Nat := match s with
  | .idle => 0
  | .capturing => 1
  | .writing => 2
  | .releasePending => 3

def Action.code (a : Action) : Nat := match a with
  | .judge => 0
  | .hold => 1
  | .widen => 2
  | .cadence => 3

def Sense.code (x : Sense) : Nat := match x with
  | .equal => 0
  | .different => 1

def HeldCause.code (h : HeldCause) : Nat := match h with
  | .none => 0
  | .census => 1
  | .voltage => 2
  | .rule => 3

def PoolResult.code (p : PoolResult) : Nat := match p with
  | .absent => 0
  | .good => 1
  | .outage => 2
  | .unitLost => 3
  | .overload => 4
  | .preempted => 5
  | .notMade => 6

/-- The wake record's cause byte of the STATUS content (11, section 11.6). -/
def WakeCause.code (c : WakeCause) : Nat := match c with
  | .fault => 1
  | .composition => 2
  | .supply => 3

/-- Reason codes (11, section 11.4). -/
def Reason.code (r : Reason) : Nat := match r with
  | .unknownKind => 1
  | .length => 2
  | .range => 3
  | .busy => 4
  | .notReady => 5
  | .notInService => 6
  | .pin => 7
  | .sequence => 8
  | .locked => 9
  | .state => 10
  | .errorPending => 11

def Sticky.code (e : Sticky) : Nat :=
  e.sequence.toNat + 2 * e.aborted.toNat + 4 * e.mismatch.toNat + 8 * e.incomplete.toNat + 16 * e.store.toNat

def StoreFaults.code (f : StoreFaults) : Nat :=
  f.config.toNat + 2 * f.rules.toNat + 4 * f.loadsA.toNat + 8 * f.loadsB.toNat

def SlotState.code (x : SlotState) : Nat := match x with
  | .present => 0
  | .stale => 1
  | .lost => 2

def BaselineState.code (x : BaselineState) : Nat := match x with
  | .unknown => 0
  | .learning => 1
  | .known => 2

def Lock.code (x : Lock) : Nat := match x with
  | .opened => 0
  | .commissioned => 1

/-- Load Table entry kinds; 0 is EMPTY. -/
def EntryKey.code (k : EntryKey) : Nat := match k with
  | .unit _ => 1
  | .remainder _ => 2

def RecordState.code (x : RecordState) : Nat := match x with
  | .suspect => 0
  | .active => 1
  | .healing => 2

def Role.code (x : Role) : Nat := match x with
  | .head => 0
  | .member _ => 1
  | .orphan => 2

def ServiceOp.code (x : ServiceOp) : Nat := match x with
  | .commission => 0
  | .release => 1

/-- SERVICE-DONE results. -/
def ServiceResult.code (x : ServiceResult) : Nat := match x with
  | .done => 0
  | .sequence => 1
  | .aborted => 2
  | .mismatch => 3
  | .incomplete => 4
  | .store => 5

/-- The result of a CONFIRM reply: 0 WRITING, absent here, 1 MISMATCH, 2 INCOMPLETE; a CONFIRM is replied with no
other. -/
def confirmCode (x : Option ServiceResult) : Nat := match x with
  | none => 0
  | some .mismatch => 1
  | some _ => 2

/-- The state of a rule set: 0 INTACT, 1 BROKEN. -/
def setStateCode (breakers : List Nat) : Nat := if breakers.isEmpty then 0 else 1

/-- Capture record states: 0 WAITING, 1 CAPTURED. -/
def capturedCode (x : Option Captured) : Nat := if x.isSome then 1 else 0

def classBit (c : LampClass) : Nat := match c with
  | .filament => 0
  | .regulated => 1

/-- The wake causes as bits: 0 FAULT, 1 COMPOSITION, 2 SUPPLY (R198). -/
def wakeBits (w : WakeSet) : Nat :=
  (if w.fault then 1 else 0) + (if w.composition then 2 else 0) + (if w.supply then 4 else 0)

/-! ### Fields (R198) -/

/-- A number as n bytes, most significant first. -/
def toBigEndian (n v : Nat) : List Byte :=
  match n with
  | 0 => []
  | k + 1 => toBigEndian k (v / 256) ++ [BitVec.ofNat 8 v]

/-- A subject byte: 0 for absent (R198). -/
def subjectCode (t : Option Subject) : Nat := match t with
  | none => 0
  | some (.slot n) => n
  | some .remainder => 15

/-- A circuit that may be absent: 255 (R198). -/
def circuitCode (c : Option Circuit) : Nat := c.elim 255 (·.val)

/-- A unit identity; zero where absent (R198). -/
def identityBytes (id : Option Identity) : List Byte := toBigEndian 6 (id.elim 0 (·.toNat))

/-- A time in milliseconds, saturated at the field's largest value (R198). -/
def timeBytes (n t : Nat) : List Byte := toBigEndian n (min t (256 ^ n - 1))

/-- A signed number, two's complement, 4 bytes (R198). -/
def signedBytes (x : Int) : List Byte := toBigEndian 4 (BitVec.ofInt 32 x).toNat

/-- One bit a circuit (R198). -/
def circuitBits (p : PerCircuit Bool) : Byte :=
  BitVec.ofNat 8 (p.c0.toNat + 2 * p.c1.toNat + 4 * p.c2.toNat + 8 * p.c3.toNat + 16 * p.c4.toNat + 32 * p.c5.toNat +
    64 * p.c6.toNat + 128 * p.c7.toNat)

def oneByte (n : Nat) : List Byte := [BitVec.ofNat 8 n]

/-- The 16 bytes of a rule (11, WRITE-RULE body). -/
def ruleBody (number : Nat) (r : Rule) : List Byte :=
  oneByte number ++ oneByte r.enabled.toNat ++ oneByte r.sense.code ++ [r.circuits] ++ toBigEndian 2 r.mask.toNat ++
    toBigEndian 2 r.value.toNat ++ oneByte r.head ++ toBigEndian 4 r.members.toNat ++ oneByte r.action.code ++
    toBigEndian 2 r.param

/-! ### The bytes of a store block (R181; log 12) -/

def perCircuitBytes {α : Type} (f : α → List Byte) (p : PerCircuit α) : List Byte := (p.toList.map f).flatten

/-- CONFIG: the parameters in the order of their ids (09, section 9.7). -/
def paramsBytes (p : Params) : List Byte :=
  perCircuitBytes (toBigEndian 2) p.gain ++ perCircuitBytes (toBigEndian 2) p.settle ++
    perCircuitBytes (toBigEndian 2) p.tAbs ++ perCircuitBytes (toBigEndian 2) p.tPm ++
    perCircuitBytes (toBigEndian 2) p.tOver ++ perCircuitBytes oneByte p.severity ++
    perCircuitBytes (fun c => oneByte (classBit c)) p.legacyClass ++ oneByte p.window ++ toBigEndian 2 p.interval ++
    oneByte p.learnCount ++ oneByte p.confirm ++ oneByte p.heal ++ toBigEndian 2 p.linger ++
    toBigEndian 2 p.reconcile ++ oneByte (wakeBits p.wakeMask)

/-- RULES: the rules in the order of their numbers, each as a WRITE-RULE body gives it. -/
def rulesBytes (rules : List Rule) : List Byte := (rules.zipIdx.map fun (r, n) => ruleBody n r).flatten

/-- A key: the unit identity, or the signature with its identity count before it. -/
def keyBytes (k : EntryKey) : List Byte :=
  match k with
  | .unit id => identityBytes (some id)
  | .remainder sig => oneByte sig.length ++ (sig.map fun id => identityBytes (some id)).flatten

def baselineBytes (b : Baseline) : List Byte :=
  oneByte b.state.code ++ oneByte (classBit b.cls) ++ toBigEndian 2 b.nominal ++ toBigEndian 2 b.vref

/-- LOADS: the entries in the order of their indices, each its kind, 0 for EMPTY, key, age, lock and baselines. -/
def loadsBytes (entries : List (Option StoredEntry)) : List Byte :=
  (entries.map fun o =>
    match o with
    | none => oneByte 0
    | some e =>
      oneByte e.key.code ++ keyBytes e.key ++ oneByte e.age ++ oneByte e.lock.code ++
        perCircuitBytes baselineBytes e.baselines).flatten

/-- The CRC-16 of a block, over its content and its format number (R181). -/
def blockCrc (content : List Byte) (format : Byte) : BitVec 16 := crc16 (content ++ [format])

/-- A CRC-16 that does not match the right one (R183, R184). -/
def spoiledCrc (right : BitVec 16) : BitVec 16 :=
  right ^^^ (if Config.crcDamage right = 0 then 1#16 else Config.crcDamage right)

/-- A block written whole: the part's format number, and the CRC over both (R181). -/
def Copy.sealed {α : Type} (bytes : α → List Byte) (content : α) : Copy α :=
  { content := content, format := Config.storeFormat, crc := blockCrc (bytes content) Config.storeFormat }

/-- A block whose write is in progress, was cut short or failed: its CRC does not match (R183, R184). -/
def Copy.spoiled {α : Type} (bytes : α → List Byte) (content : α) : Copy α :=
  { content := content, format := Config.storeFormat, crc := spoiledCrc (blockCrc (bytes content) Config.storeFormat) }

/-- A block is good when its CRC matches and its format number is the part's (R181). -/
def Copy.good {α : Type} (bytes : α → List Byte) (c : Copy α) : Bool :=
  c.crc = blockCrc (bytes c.content) c.format && c.format = Config.storeFormat

end Sys2Proof.Machine
end

