-- ==== Sys2Proof/Machine/State.lean ====
section
/-!
DEFINITION. The state of the TK740 as plain data: the ten blocks (Data.lean), the clock and the queue of waiting
commands; the reasons a step can stop; and the state right after reset.
-/
namespace Sys2Proof.Machine

/-! ### The machine -/

/-- The whole state: the clock, the ten blocks, and the queue of waiting commands, first in, first out. -/
structure State where
  now : Nat
  freeCount : Nat
  params : Params
  sfe : Sfe
  clc : Clc
  ldt : Ldt
  jge : Jge
  flt : Flt
  dsr : Dsr
  svc : Svc
  hlc : Hlc
  stc : Stc
  pwc : Pwc
  pending : List Instr
deriving DecidableEq, Repr

/-- The part stops on no command: every wrong input has an effect the manual describes (R18, R166, R168). -/
inductive Fault where
deriving DecidableEq, Repr

/-- Why the model gives a command no meaning. -/
inductive Refusal where
  /-- Raised by no command of the finished model: every row of the table has a meaning. Safe. -/
  | notModelled (mnemonic : String)
deriving DecidableEq, Repr

/-! ### After reset -/

def CircuitSense.initial : CircuitSense :=
  { phase := .waiting, settleTimer := none, window := none, done := none, nextStart := none, settleEnd := none,
    zero := 0, senseSat := false, leak := false }

/-- R17. -/
def Sfe.initial (now : Nat) : Sfe :=
  { circuits := PerCircuit.fill CircuitSense.initial, supplyWindow := none, supplyDone := none, supplyReading := 0,
    voltage := false, voltageMark := none, nextScan := now, standbyScan := 0 }

/-- R43. -/
def Clc.initial (now : Nat) : Clc :=
  { table := [], census := none, censusNumber := 0, coupling := false, holdoff := none, pendingTrigger := false,
    cycleCounter := 0, counts := { enumerated := 0, retained := 0, duplicates := 0, beyond := 0 }, task := none,
    line := .idle, idleFrom := now, lineBreak := none, visit := none, cycle := none, standbyCycle := 0 }

/-- R62; the entries come with the store load (log 5). -/
def Ldt.initial : Ldt :=
  { entries := List.replicate 28 none, slotTrack := [], signatureTrack := none, loadsFull := false }

/-- R76, R85; the rules come with the store load (log 5). -/
def Jge.initial : Jge :=
  { rules := defaultRules, watches := PerCircuit.fill { armed := none, load := 0 },
    summaries := PerCircuit.fill none }

/-- R122. -/
def Flt.initial : Flt :=
  { records := List.replicate 32 none, activation := 0, saturated := false, fastLeft := false, fastRight := false }

/-- R148. -/
def Dsr.initial : Dsr :=
  { list := [], overflow := 0, idCounter := 1, mirror := .inStep, content := { triples := [], overflow := 0 },
    reconcile := none, staleAcks := 0, ttfb := false }

/-- R150; the SERVICE line is an input and keeps its level. -/
def Svc.initial (line : Bool) : Svc :=
  { line := line, mode := false, state := .idle, sticky := Sticky.none, capture := none, captureTimer := none,
    release := none, write := none }

/-- R180. -/
def Hlc.initial (now : Nat) : Hlc :=
  { wire := [], receiver := .hunting, processing := none, buffer := none, sending := none, queue := [], word := 0,
    previous := 0, lastTell := now, stale := true, firstTell := true, silent := false, silence := none, oversize := 0,
    broken := 0, badCrc := 0, overrun := 0, changes := [] }

/-- A factory-fresh store: all four blocks good, each with its default content (R181). -/
def Stc.factory : Stc :=
  { config := Copy.sealed paramsBytes Params.default
    rules := Copy.sealed rulesBytes defaultRules
    loadsA := Copy.sealed loadsBytes (List.replicate 12 none)
    loadsB := Copy.sealed loadsBytes (List.replicate 16 none)
    queue := [], writing := none, fault := StoreFaults.none }

/-- R197. -/
def Pwc.initial (cause : ResetCause) (held : Bool) : Pwc :=
  { power := .start, held := held, cause := cause, wakeFlags := WakeSet.none, wakeRecord := none, lowScans := 0,
    wake := false, agingCount := 0, agingSince := none, standbyEntry := false, restartPending := false }

/-- The machine right after a POWER-ON reset of a part with a factory-fresh store (R181, R186), the SERVICE line low,
the reset input released and the clock at 0 (log 4). -/
def State.reset : State :=
  { now := 0, freeCount := 0, params := Params.default, sfe := Sfe.initial 0, clc := Clc.initial 0,
    ldt := Ldt.initial, jge := Jge.initial, flt := Flt.initial, dsr := Dsr.initial, svc := Svc.initial false,
    hlc := Hlc.initial 0, stc := Stc.factory, pwc := Pwc.initial .powerOn false, pending := [] }

end Sys2Proof.Machine
end

