-- ==== Sys2Proof/Machine/Operands.lean ====
section
/-!
DEFINITION. The operand forms: fields of host record bodies (R198, R199), parameters by their ids (09, section 9.7),
and the payloads of the chain line frames (R201).
-/
namespace Sys2Proof.Machine

/-! ### Fields of a body (R198) -/

/-- The byte at an offset; a body that passed the LENGTH test has it. -/
def byteAt (body : List Byte) (i : Nat) : Byte := body.getD i 0

/-- A number of several bytes, most significant byte first (R198). -/
def bigEndian (bytes : List Byte) : Nat := bytes.foldl (fun acc b => acc * 256 + b.toNat) 0

def numberAt (body : List Byte) (i n : Nat) : Nat := bigEndian ((body.drop i).take n)

/-- A unit identity: 6 bytes, most significant first (R198). -/
def identityAt (body : List Byte) (i : Nat) : Identity := BitVec.ofNat 48 (numberAt body i 6)

/-- A subject: 1 to 6 a slot, 15 REMAINDER; any other code names none (R198). -/
def subjectOf (b : Byte) : Option Subject :=
  if b.toNat = 15 then some .remainder
  else if 1 ≤ b.toNat ∧ b.toNat ≤ 6 then some (.slot b.toNat)
  else none

def circuitOf (n : Nat) : Option Circuit := if h : n < 8 then some ⟨n, h⟩ else none

/-- The wake causes as bits: 0 FAULT, 1 COMPOSITION, 2 SUPPLY; bits 3 to 7 name nothing (R198). -/
def wakeSetOf (n : Nat) : Option WakeSet :=
  if 7 < n then none
  else some { fault := n % 2 = 1, composition := n / 2 % 2 = 1, supply := n / 4 % 2 = 1 }

def actionOf (n : Nat) : Option Action :=
  match n with
  | 0 => some .judge
  | 1 => some .hold
  | 2 => some .widen
  | 3 => some .cadence
  | _ => none

def senseOf (n : Nat) : Option Sense :=
  match n with
  | 0 => some .equal
  | 1 => some .different
  | _ => none

/-- The triples of a CLUSTER-REPORT body, in the order it carries them (11, section 11.3). -/
def triplesOf (pairs : List Byte) : List Triple :=
  match pairs with
  | id :: v :: rest => { id := id.toNat, version := v.toNat % 16, acked := v.getLsbD 7 } :: triplesOf rest
  | _ => []

/-- The content of a CLUSTER-REPORT body (11, section 11.3). -/
def reportContent (body : List Byte) : MirrorContent :=
  { triples := triplesOf (body.drop 2), overflow := (byteAt body 1).toNat }

/-- The Function Word of a FUNCTION body (11, section 11.3). -/
def wordOf (body : List Byte) : FunctionWord := BitVec.ofNat 16 (numberAt body 0 2)

/-- An unadjusted rule from a WRITE-RULE body (11, WRITE-RULE body). Refused RANGE: absent (R71, R198). -/
def ruleOf (body : List Byte) : Option (Nat × Rule) :=
  let number := (byteAt body 0).toNat
  let head := (byteAt body 8).toNat
  if 31 < number ∨ 31 < head then none
  else
    match senseOf (byteAt body 2).toNat, actionOf (byteAt body 13).toNat with
    | some sense, some action =>
      some (number,
        { enabled := (byteAt body 1).getLsbD 0
          circuits := byteAt body 3
          mask := BitVec.ofNat 16 (numberAt body 4 2)
          value := BitVec.ofNat 16 (numberAt body 6 2)
          sense := sense
          head := head
          members := BitVec.ofNat 32 (numberAt body 9 4)
          action := action
          param := numberAt body 14 2 })
    | _, _ => none

/-! ### Parameters by id (R173, R174) -/

/-- W clamped down to the next lower allowed value (R4). -/
def clampWindow (n : Nat) : Nat :=
  if n < 2 then 1 else if n < 4 then 2 else if n < 8 then 4 else if n < 16 then 8 else 16

/-- The working value of a parameter; absent where R173 refuses the id or the circuit RANGE. -/
def paramValue (p : Params) (id circuit : Nat) : Option Nat :=
  match id with
  | 1 => (circuitOf circuit).map p.gain.get
  | 2 => (circuitOf circuit).map p.settle.get
  | 3 => (circuitOf circuit).map p.tAbs.get
  | 4 => (circuitOf circuit).map p.tPm.get
  | 5 => (circuitOf circuit).map p.tOver.get
  | 6 => (circuitOf circuit).map p.severity.get
  | 7 => (circuitOf circuit).map fun c => classBit (p.legacyClass.get c)
  | 16 => some p.window
  | 17 => some p.interval
  | 18 => some p.learnCount
  | 19 => some p.confirm
  | 20 => some p.heal
  | 21 => some p.linger
  | 22 => some p.reconcile
  | 23 => some (wakeBits p.wakeMask)
  | _ => none

/-- The parameters after a write; absent where R173 refuses it RANGE. A numeric value outside its range is stored
clamped to the nearer end, W as R4 states (R173). -/
def paramStore (p : Params) (id circuit value : Nat) : Option Params :=
  match id with
  | 1 => (circuitOf circuit).map fun c => { p with gain := p.gain.set c (clamp 1000 20000 value) }
  | 2 => (circuitOf circuit).map fun c => { p with settle := p.settle.set c (clamp 0 500 value) }
  | 3 => (circuitOf circuit).map fun c => { p with tAbs := p.tAbs.set c (clamp 10 1000 value) }
  | 4 => (circuitOf circuit).map fun c => { p with tPm := p.tPm.set c (clamp 10 500 value) }
  | 5 => (circuitOf circuit).map fun c => { p with tOver := p.tOver.set c (clamp 50 1000 value) }
  | 6 => (circuitOf circuit).map fun c => { p with severity := p.severity.set c (clamp 1 7 value) }
  | 7 =>
    match circuitOf circuit, value with
    | some c, 0 => some { p with legacyClass := p.legacyClass.set c .filament }
    | some c, 1 => some { p with legacyClass := p.legacyClass.set c .regulated }
    | _, _ => none
  | 16 => some { p with window := clampWindow value }
  | 17 => some { p with interval := clamp 50 1000 value }
  | 18 => some { p with learnCount := clamp 1 8 value }
  | 19 => some { p with confirm := clamp 1 15 value }
  | 20 => some { p with heal := clamp 1 31 value }
  | 21 => some { p with linger := clamp 5 300 value }
  | 22 => some { p with reconcile := clamp 500 10000 value }
  | 23 => (wakeSetOf value).map fun w => { p with wakeMask := w }
  | _ => none

/-! ### Chain line frames (R201) -/

/-- A frame with its LEN and CRC-8 (R201). -/
def chainFrame (addr ty : Nat) (payload : List Byte) : ChainFrame :=
  let head := [BitVec.ofNat 8 addr, BitVec.ofNat 8 ty, BitVec.ofNat 8 payload.length]
  { addr := BitVec.ofNat 8 addr, ty := BitVec.ofNat 8 ty, len := BitVec.ofNat 8 payload.length, payload := payload,
    crc := crc8 (head ++ payload) }

/-- The payload of an ASSIGN and of its echo: slot, identity, census number (R201). -/
def assignPayload (a : Assign) (number : Nat) : List Byte :=
  BitVec.ofNat 8 a.slot :: toBigEndian 6 a.node.identity.toNat ++ [BitVec.ofNat 8 number]

/-- The frame the part sends for an exchange: ROLL 1, ASSIGN 3, POLL 5 to the visited slot (R201). -/
def sentFrame (x : Exchange) (number slot : Nat) : ChainFrame :=
  match x with
  | .roll => chainFrame 0 1 [BitVec.ofNat 8 number]
  | .assign a => chainFrame 0 3 (assignPayload a number)
  | .poll => chainFrame slot 5 []

/-- Time on the line of a frame: 10 bit times a byte at 19,200 bit/s, in whole microseconds (02, section 2.1). -/
def chainFrameTime (f : ChainFrame) : Nat := (f.payload.length + 4) * 15625 / 30

/-- The CRC over ADDR, TYPE, LEN and payload matches (R18, R201). -/
def chainCrcGood (f : ChainFrame) : Bool := f.crc = crc8 (f.addr :: f.ty :: f.len :: f.payload)

/-- The eight lamp positions of a ROLL-ANSWER: circuit 0 in the high half of the first byte (R201). -/
def lampsAt (payload : List Byte) (i : Nat) : PerCircuit Nat :=
  PerCircuit.ofFn fun c =>
    let b := (byteAt payload (i + c.val / 2)).toNat
    if c.val % 2 = 0 then b / 16 else b % 16

/-- The 24-bit number of circuit c in a REPORT payload (R201). -/
def circuitField (payload : List Byte) (c : Circuit) : Nat := numberAt payload (7 + 3 * c.val) 3

/-- A REPORT payload read (R201): bits 0 to 12 the current, 13 the class, 14 to 17 the outage flags. -/
def reportOf (payload : List Byte) : Report :=
  { identity := identityAt payload 0
    energized := byteAt payload 6
    current := PerCircuit.ofFn fun c => circuitField payload c % 8192
    cls := PerCircuit.ofFn fun c => if circuitField payload c / 8192 % 2 = 1 then .regulated else .filament
    outage := PerCircuit.ofFn fun c => BitVec.ofNat 4 (circuitField payload c / 16384 % 16) }

/-- A valid answer, by what it says (R18). -/
inductive Answer where
  | rollAnswer (node : Placed)
  | echo (payload : List Byte)
  | report (r : Report)
  | busy
deriving DecidableEq, Repr

/-- The payload length laid down for an answer's type (R201). -/
def answerLength (ty : Nat) : Option Nat :=
  match ty with
  | 2 => some 10
  | 4 => some 8
  | 6 => some 31
  | 7 => some 0
  | _ => none

/-- A completed answer classed against the exchange it answers: valid with its content, or invalid (R18). The CRC
matches, LEN is no more than 40 and that of its type, TYPE is one expected, ADDR is that of the frame sent, and every
field lies in its range. -/
def classify (x : Exchange) (slot : Nat) (f : ChainFrame) : Option Answer :=
  if chainCrcGood f = false ∨ f.payload.length ≠ f.len.toNat ∨ answerLength f.ty.toNat ≠ some f.len.toNat then none
  else
    match x, f.ty.toNat with
    | .roll, 2 =>
      let lamps := lampsAt f.payload 6
      if f.addr.toNat = 0 ∧ lamps.toList.all (· ≤ 4) then
        some (.rollAnswer { identity := identityAt f.payload 0, lamps := lamps })
      else none
    | .assign _, 4 => if f.addr.toNat = 0 then some (.echo f.payload) else none
    | .poll, 6 => if f.addr.toNat = slot then some (.report (reportOf f.payload)) else none
    | .poll, 7 => if f.addr.toNat = slot then some .busy else none
    | _, _ => none

end Sys2Proof.Machine
end

