-- ==== Sys2Proof/Machine/Flags.lean ====
section
/-!
DEFINITION. The status flags and the change set they feed (R176 to R178), and the signal lines and telltales computed
from the state (R136, R145, R193). Every write of a status matter goes through a setter of this file.
-/
namespace Sys2Proof.Machine

/-! ### The change set (R177) -/

/-- A matter enters the change set once, however often it changes (R177). -/
def addMatter (m : Matter) (ms : List Matter) : List Matter := if m ∈ ms then ms else ms ++ [m]

/-- The change set with another one taken in (R169, R178). -/
def joinMatters (a b : List Matter) : List Matter := b.foldl (fun acc m => addMatter m acc) a

def mark (m : Matter) (s : State) : State :=
  { s with hlc := { s.hlc with changes := addMatter m s.hlc.changes } }

def markIf (changed : Bool) (m : Matter) (s : State) : State := if changed then mark m s else s

/-! ### Setters -/

def setCircuit (c : Circuit) (x : CircuitSense) (s : State) : State :=
  { s with sfe := { s.sfe with circuits := s.sfe.circuits.set c x } }

/-- SENSE-SAT of circuit c (R11). -/
def setSenseSat (c : Circuit) (b : Bool) (s : State) : State :=
  let x := s.sfe.circuits.get c
  markIf (x.senseSat != b) (.senseSat c) (setCircuit c { x with senseSat := b } s)

/-- LEAK of circuit c (R8, R11). -/
def setLeak (c : Circuit) (b : Bool) (s : State) : State :=
  let x := s.sfe.circuits.get c
  markIf (x.leak != b) (.leak c) (setCircuit c { x with leak := b } s)

/-- VOLTAGE (R11). -/
def setVoltage (b : Bool) (s : State) : State :=
  markIf (s.sfe.voltage != b) .voltage { s with sfe := { s.sfe with voltage := b } }

/-- LOADS-FULL (R50). -/
def setLoadsFull (b : Bool) (s : State) : State :=
  markIf (s.ldt.loadsFull != b) .loadsFull { s with ldt := { s.ldt with loadsFull := b } }

/-- FW-STALE (R171). -/
def setStale (b : Bool) (s : State) : State :=
  markIf (s.hlc.stale != b) .fwStale { s with hlc := { s.hlc with stale := b } }

/-- The mirror state (R139). -/
def setMirror (m : MirrorState) (s : State) : State :=
  markIf (s.dsr.mirror != m) .mirror { s with dsr := { s.dsr with mirror := m } }

def StoreFaults.get (f : StoreFaults) (b : StoreBlock) : Bool :=
  match b with
  | .config => f.config
  | .rules => f.rules
  | .loadsA => f.loadsA
  | .loadsB => f.loadsB

def StoreFaults.put (f : StoreFaults) (b : StoreBlock) (x : Bool) : StoreFaults :=
  match b with
  | .config => { f with config := x }
  | .rules => { f with rules := x }
  | .loadsA => { f with loadsA := x }
  | .loadsB => { f with loadsB := x }

/-- STORE-FAULT of one block (R182, R184). -/
def setStoreFault (b : StoreBlock) (x : Bool) (s : State) : State :=
  markIf (s.stc.fault.get b != x) (.storeFault b) { s with stc := { s.stc with fault := s.stc.fault.put b x } }

/-! ### Fast flash and the Fault Table's flags (R118, R119) -/

/-- A record that holds the fast-flash request of the turn circuit c: LAMP family, ACTIVE or HEALING, OUTAGE or
UNIT-LOST (R119). -/
def holdsFastFlash (c : Circuit) (r : FaultRecord) : Bool :=
  match r.key with
  | .lamp _ d => d = c && r.state != .suspect && (r.kind = .outage || r.kind = .unitLost)
  | _ => false

def fastFlashDue (c : Circuit) (records : List (Option FaultRecord)) : Bool :=
  records.any fun o => o.any (holdsFastFlash c)

/-- The Fault Table as an event leaves it: the fast-flash requests evaluated from the records, SATURATED as the event
left it, and each change of the three reported (R106, R118, R119). -/
def commitFaults (f : Flt) (s : State) : State :=
  let f' := { f with fastLeft := fastFlashDue 0 f.records, fastRight := fastFlashDue 1 f.records }
  { s with flt := f' }
    |> markIf (s.flt.saturated != f'.saturated) .saturated
    |> markIf (s.flt.fastLeft != f'.fastLeft) .fastLeft
    |> markIf (s.flt.fastRight != f'.fastRight) .fastRight

/-! ### Lines computed from the state -/

/-- A record that is ACTIVE or HEALING. -/
def FaultRecord.live (r : FaultRecord) : Bool := r.state != .suspect

def anyLive (records : List (Option FaultRecord)) : Bool := records.any fun o => o.any FaultRecord.live

/-- TTFB is asserted exactly while ACTIVE, some record is ACTIVE or HEALING, and the mirror is DIVERGED or the host
link SILENT (R145). -/
def ttfbDue (s : State) : Bool :=
  s.pwc.power = .active && anyLive s.flt.records && (s.dsr.mirror = .diverged || s.hlc.silent)

def WakeSet.has (w : WakeSet) (c : WakeCause) : Bool :=
  match c with
  | .fault => w.fault
  | .composition => w.composition
  | .supply => w.supply

def WakeSet.put (w : WakeSet) (c : WakeCause) (b : Bool) : WakeSet :=
  match c with
  | .fault => { w with fault := b }
  | .composition => { w with composition := b }
  | .supply => { w with supply := b }

def WakeSet.meet (a b : WakeSet) : WakeSet :=
  { fault := a.fault && b.fault, composition := a.composition && b.composition, supply := a.supply && b.supply }

def WakeSet.minus (a b : WakeSet) : WakeSet :=
  { fault := a.fault && !b.fault, composition := a.composition && !b.composition, supply := a.supply && !b.supply }

def WakeSet.isEmpty (w : WakeSet) : Bool := !w.fault && !w.composition && !w.supply

/-- WAKE is asserted exactly while STANDBY with an enabled flag set (R193). -/
def wakeDue (s : State) : Bool :=
  s.pwc.power = .standby && !(s.pwc.wakeFlags.meet s.params.wakeMask).isEmpty

/-- TTFB and WAKE evaluated (R145, R193). -/
def refreshLines (s : State) : State :=
  { s with dsr := { s.dsr with ttfb := ttfbDue s }, pwc := { s.pwc with wake := wakeDue s } }

/-- One telltale from the live entries it looks at (R136). -/
def telltaleOf (entries : List DisplayEntry) : Telltale :=
  if entries.isEmpty then .off else if entries.any (·.state = .new) then .flash else .steady

/-- The telltale summary of a list (R136). -/
def telltales (list : List DisplayEntry) : Telltales :=
  let live := list.filter (·.state != .resolved)
  { left := telltaleOf (live.filter (·.circuit = some 0))
    right := telltaleOf (live.filter (·.circuit = some 1))
    general := telltaleOf (live.filter fun e => e.circuit != some 0 && e.circuit != some 1) }

/-- The values a STATUS-CHANGE carries (R178). -/
def statusValues (s : State) : StatusValues :=
  { senseSat := s.sfe.circuits.mapAt fun _ x => x.senseSat
    leak := s.sfe.circuits.mapAt fun _ x => x.leak
    voltage := s.sfe.voltage
    loadsFull := s.ldt.loadsFull
    saturated := s.flt.saturated
    storeFault := s.stc.fault
    fwStale := s.hlc.stale
    fastLeft := s.flt.fastLeft
    fastRight := s.flt.fastRight
    mirror := s.dsr.mirror
    silent := s.hlc.silent
    ttfb := s.dsr.ttfb
    power := s.pwc.power }

end Sys2Proof.Machine
end

