-- ==== Sys2Proof/Machine/Ops.lean ====
section
/-!
DEFINITION. Operations every block uses: the clock, the transmit queue with its two coalesced notices (R169), the
display snapshot (R137), the STATUS-CHANGE notice (R178) and the end of an event (R202).
-/
namespace Sys2Proof.Machine

abbrev Result := Host.Outcome State Fault Refusal

/-! ### The clock -/

/-- The clock moved on to a moment that has come (log 2). -/
def reach (t : Nat) (s : State) : State := { s with now := max s.now t }

/-- Clock units as whole milliseconds, truncated (log 19). -/
def toMs (us : Nat) : Nat := us / 1000

/-- Milliseconds since a moment, saturated at the largest value of a two-byte field (R198). -/
def ageMs (s : State) (t : Nat) : Nat := min (toMs (s.now - t)) 65535

/-- Milliseconds that remain to a deadline. -/
def remainMs (s : State) (deadline : Nat) : Nat := toMs (deadline - s.now)

/-! ### The transmit queue (R169) -/

/-- The transmitter starts the next frame as soon as none is being sent (R169). -/
def Hlc.pump (h : Hlc) : Hlc :=
  match h.sending, h.queue with
  | none, r :: q => { h with sending := some r, queue := q }
  | _, _ => h

def Hlc.enqueue (r : TxRecord) (h : Hlc) : Hlc := { h with queue := h.queue ++ [r] }.pump

/-- A reply or notice enters the transmit queue (R169). -/
def send (r : TxRecord) (s : State) : State := { s with hlc := s.hlc.enqueue r }

/-- The parts of one reply enter the queue together (R169). -/
def sendAll (rs : List TxRecord) (s : State) : State := rs.foldl (fun acc r => send r acc) s

def refuse (kind : Byte) (reason : Reason) (s : State) : State := send (.refused kind reason) s

def TxRecord.isSnapshot : TxRecord → Bool
  | .snapshot _ _ _ => true
  | _ => false

def TxRecord.isStatusChange : TxRecord → Bool
  | .statusChange _ _ => true
  | _ => false

/-- The change set a waiting STATUS-CHANGE carries (R169). -/
def TxRecord.changeSet : TxRecord → List Matter
  | .statusChange ms _ => ms
  | _ => []

/-- A DISPLAY-SNAPSHOT of the list as it stands: it withdraws one still waiting (R169), restarts the reconcile timer
and sets the mirror to PENDING (R137, R141). -/
def sendSnapshot (s : State) : State :=
  { s with
    hlc := { s.hlc with queue := s.hlc.queue.filter fun r => !r.isSnapshot }.enqueue
      (.snapshot s.dsr.list s.dsr.overflow (telltales s.dsr.list))
    dsr := { s.dsr with reconcile := some (s.now + ms s.params.reconcile) } }
  |> setMirror .pending

/-- A STATUS-CHANGE made: it withdraws one still waiting and takes in that one's change set, and the change set is
emptied (R169, R178). -/
def sendStatusChange (s : State) : State :=
  let waiting := (s.hlc.queue.map TxRecord.changeSet).flatten
  let h := { s.hlc with queue := s.hlc.queue.filter (fun r => !r.isStatusChange), changes := [] }
  { s with hlc := h.enqueue (.statusChange (joinMatters waiting s.hlc.changes) (statusValues s)) }

/-! ### The end of an event -/

/-- A frame that woke the part waits or is in processing: until its processing ends the change set only gathers (R178). -/
def waking (s : State) : Bool := s.hlc.processing.any (·.woke) || s.hlc.buffer.any (·.woke)

/-- The end of an event's work: TTFB and WAKE stand as the state gives them, and in ACTIVE a change set that is not
empty goes out in one STATUS-CHANGE (R178, R202). -/
def finish (s : State) : State :=
  let s' := refreshLines s
  if s'.pwc.power = .active && !waking s' && !s'.hlc.changes.isEmpty then sendStatusChange s' else s'

/-- An event of a part that is out of reset: its work and the end of it. While the reset input is held the part does
nothing (R186, log 11). -/
def event (work : State → State) (s : State) : State := if s.pwc.held then s else finish (work s)

end Sys2Proof.Machine
end

