-- ==== Sys2Proof/Machine/Faults.lean ====
section
/-!
DEFINITION. The Fault Table (06): the debounce machine, removals, NODE-LOST records and the census re-keying. Each
operation answers the table and what it has to tell the Display Reconciler and the Power Controller.
-/
namespace Sys2Proof.Machine

/-- One outcome handed to the Fault Table (R98): kind absent is GOOD. -/
structure Verdict where
  key : FaultKey
  kind : Option Kind
  identity : Option Identity
  expected : Nat
  deficit : Int
deriving DecidableEq, Repr

/-- What an operation on the table has to tell (R106, R111, R113): a removal with its cause, HEALED or DISCARDED, or
an entry to ACTIVE. -/
inductive FltEffect where
  | removed (r : FaultRecord) (healed : Bool)
  | activated (r : FaultRecord)
deriving DecidableEq, Repr

abbrev FltStep := Flt × List FltEffect

/-! ### Positions and keys (R104) -/

def recordAt (f : Flt) (i : Nat) : Option FaultRecord := f.records.getD i none

def findRecord (f : Flt) (k : FaultKey) : Option Nat := f.records.findIdx? fun o => o.any (·.key = k)

def recordOf (f : Flt) (k : FaultKey) : Option FaultRecord := (findRecord f k).bind (recordAt f)

/-- The lowest empty position (R104). -/
def emptyPosition (f : Flt) : Option Nat := f.records.findIdx? Option.isNone

def recordCount (f : Flt) : Nat := (f.records.filter Option.isSome).length

def putRecord (i : Nat) (r : FaultRecord) (f : Flt) : Flt := { f with records := f.records.set i (some r) }

/-- SATURATED is cleared when, after a removal, fewer than 32 records are held (R118). -/
def settleSaturated (f : Flt) : Flt := { f with saturated := f.saturated && !(recordCount f < 32) }

def dropRecord (i : Nat) (f : Flt) : Flt := settleSaturated { f with records := f.records.set i none }

/-! ### Activation (R111) -/

/-- A record becomes ACTIVE for the first time: the counter steps, the record takes the new value, and the
acknowledged flag is clear (R111). -/
def firstActive (i : Nat) (r : FaultRecord) (f : Flt) : FltStep :=
  let n := f.activation + 1
  let r' := { r with state := .active, heal := 0, sequence := some n, acked := false }
  (putRecord i r' { f with activation := n }, [.activated r'])

/-! ### The debounce machine (R106 to R110) -/

/-- A significant outcome for a key the table does not hold (R107). -/
def createSuspect (p : Params) (v : Verdict) (k : Kind) (f : Flt) : FltStep :=
  match emptyPosition f with
  | none => ({ f with saturated := true }, [])
  | some i =>
    let r : FaultRecord :=
      { key := v.key, identity := v.identity, kind := k, state := .suspect, suspect := 1, heal := 0,
        sequence := none, acked := false, entryId := none, lastExpected := v.expected, lastDeficit := v.deficit }
    if p.confirm ≤ 1 then firstActive i r f else (putRecord i r f, [])

/-- A significant outcome reaching a record, whose figures are already the outcome's (R108 to R110). -/
def significant (p : Params) (i : Nat) (r : FaultRecord) (k : Kind) (f : Flt) : FltStep :=
  let kept := r.acked && r.kind = k
  match r.state with
  | .suspect =>
    let r' := { r with kind := k, suspect := r.suspect + 1 }
    if p.confirm ≤ r'.suspect then firstActive i r' f else (putRecord i r' f, [])
  | .active => (putRecord i { r with kind := k, acked := kept } f, [])
  | .healing =>
    let r' := { r with kind := k, acked := kept, state := .active, heal := 0 }
    (putRecord i r' f, [.activated r'])

/-- A GOOD outcome reaching a record, whose figures are already the outcome's (R108 to R110). -/
def healed (p : Params) (i : Nat) (r : FaultRecord) (f : Flt) : FltStep :=
  match r.state with
  | .suspect => (dropRecord i f, [.removed r false])
  | .active =>
    if p.heal ≤ 1 then (dropRecord i f, [.removed r true])
    else (putRecord i { r with state := .healing, heal := 1 } f, [])
  | .healing =>
    if p.heal ≤ r.heal + 1 then (dropRecord i f, [.removed r true])
    else (putRecord i { r with heal := r.heal + 1 } f, [])

/-- One outcome applied to the table as it stands (R106). A GOOD outcome for a key without a record has no effect
(R99, R107). -/
def applyVerdict (p : Params) (v : Verdict) (f : Flt) : FltStep :=
  match findRecord f v.key, recordOf f v.key with
  | some i, some r =>
    let r' := { r with lastExpected := v.expected, lastDeficit := v.deficit }
    match v.kind with
    | some k => significant p i r' k f
    | none => healed p i r' f
  | _, _ =>
    match v.kind with
    | some k => createSuspect p v k f
    | none => (f, [])

/-- A batch applied whole and in order (R106). -/
def applyBatch (p : Params) (vs : List Verdict) (f : Flt) : FltStep :=
  vs.foldl (fun (acc : FltStep) v =>
    let step := applyVerdict p v acc.1
    (step.1, acc.2 ++ step.2)) (f, [])

/-! ### NODE-LOST records (R114) -/

/-- A NODE-LOST record asked for a slot (R114). -/
def createNodeLost (slot : Nat) (identity : Identity) (f : Flt) : FltStep :=
  if (findRecord f (.nodeLost slot)).isSome then (f, [])
  else
    match emptyPosition f with
    | none => ({ f with saturated := true }, [])
    | some i =>
      firstActive i
        { key := .nodeLost slot, identity := some identity, kind := .nodeLost, state := .active, suspect := 1,
          heal := 0, sequence := none, acked := false, entryId := none, lastExpected := 0, lastDeficit := 0 } f

/-! ### Removals outside a batch (R113, R115, R117) -/

/-- The records that satisfy a test, in position order. -/
def recordsWhere (t : FaultRecord → Bool) (f : Flt) : List FaultRecord := (f.records.filterMap id).filter t

/-- Every record that satisfies a test removed, with one cause (R113). -/
def removeWhere (t : FaultRecord → Bool) (healed : Bool) (f : Flt) : FltStep :=
  let gone := recordsWhere t f
  if gone.isEmpty then (f, [])
  else
    (settleSaturated { f with records := f.records.map fun o => o.filter fun r => !t r },
     gone.map fun r => .removed r healed)

/-- The removal of a slot's NODE-LOST record, its node having answered (R114). -/
def removeNodeLost (slot : Nat) (f : Flt) : FltStep := removeWhere (fun r => r.key = .nodeLost slot) true f

/-- The LAMP-family records of a subject on the circuits of a set (R115). -/
def isLampOf (subject : Subject) (set : CircuitSet) (r : FaultRecord) : Bool :=
  match r.key with
  | .lamp t c => t = subject && set.getLsbD c.val
  | _ => false

/-! ### The census result (R32, R116) -/

/-- What a completed census hands on (R32): the new chain table; for each slot of the old table, in order, the unit's new
slot or none when it was dropped; the old and the new signature; and whether the coupling flag was set. With them go
how many slots were enumerated, and the retained units that were not LOST in the old table, with their new slots. -/
structure CensusResult where
  table : List Slot
  moves : List (Option Nat)
  oldSignature : List Identity
  newSignature : List Identity
  coupling : Bool
  enumerated : Nat
  newlyLost : List (Nat × Identity)
deriving DecidableEq, Repr

def CensusResult.signatureChanged (r : CensusResult) : Bool := r.oldSignature != r.newSignature

def CensusResult.newSlot (r : CensusResult) (old : Nat) : Option Nat :=
  if old = 0 then none else r.moves.getD (old - 1) none

/-- The slot a key names, none for REMAINDER and CIRCUIT keys. -/
def keySlot (k : FaultKey) : Option Nat :=
  match k with
  | .lamp (.slot n) _ => some n
  | .nodeLost n => some n
  | _ => none

def withSlot (k : FaultKey) (n : Nat) : FaultKey :=
  match k with
  | .lamp (.slot _) c => .lamp (.slot n) c
  | .nodeLost _ => .nodeLost n
  | k => k

/-- Step 1: the record's unit was dropped (R116). -/
def unitDropped (res : CensusResult) (r : FaultRecord) : Bool :=
  match keySlot r.key with
  | some n => (res.newSlot n).isNone
  | none => false

/-- Step 2: the record's key follows its unit (R116). -/
def rekey (res : CensusResult) (r : FaultRecord) : FaultRecord :=
  match (keySlot r.key).bind res.newSlot with
  | some n => { r with key := withSlot r.key n }
  | none => r

/-- Step 3: a NODE-LOST record whose unit was enumerated again (R116). -/
def foundAgain (res : CensusResult) (r : FaultRecord) : Bool :=
  match r.key with
  | .nodeLost n => n ≤ res.enumerated
  | _ => false

def isRemainderRecord (r : FaultRecord) : Bool :=
  match r.key with
  | .lamp .remainder _ => true
  | _ => false

/-- Two steps one after the other, their effects joined. -/
def FltStep.andThen (a : FltStep) (g : Flt → FltStep) : FltStep :=
  let b := g a.1
  (b.1, a.2 ++ b.2)

/-- The four steps of R116 and the NODE-LOST records asked for, in ascending order of new slot (R203). -/
def applyCensus (res : CensusResult) (f : Flt) : FltStep :=
  let s1 := removeWhere (unitDropped res) false f
  let s2 : FltStep := ({ s1.1 with records := s1.1.records.map fun o => o.map (rekey res) }, s1.2)
  let s3 := s2.andThen (removeWhere (foundAgain res) true)
  let s4 := if res.signatureChanged then s3.andThen (removeWhere isRemainderRecord false) else s3
  res.newlyLost.foldl (fun acc x => acc.andThen (createNodeLost x.1 x.2)) s4

end Sys2Proof.Machine
end

