-- ==== Sys2Proof/Machine/Power.lean ====
section
/-!
DEFINITION. The Power Controller (10): wake causes and the wake record, and the aging minute count. Start-up, standby
entry and leaving standby stand in Store.lean, Standby.lean and Link.lean, where every block takes part.
-/
namespace Sys2Proof.Machine

/-- A report of a wake cause: taken only in STANDBY. It sets the cause's flag, and the wake record takes it when the
mask enables the cause and the record is empty (R192, R193). -/
def reportWake (r : WakeRecord) (s : State) : State :=
  if s.pwc.power = .standby then
    { s with pwc := { s.pwc with
        wakeFlags := s.pwc.wakeFlags.put r.cause true
        wakeRecord :=
          if s.params.wakeMask.has r.cause && s.pwc.wakeRecord.isNone then some r else s.pwc.wakeRecord } }
  else s

def keyCircuit (k : FaultKey) : Option Circuit :=
  match k with
  | .lamp _ c => some c
  | .disagree c => some c
  | .cadence c => some c
  | .nodeLost _ => none

/-- The FAULT report of a record entering ACTIVE (R111). -/
def faultReport (r : FaultRecord) : WakeRecord :=
  { cause := .fault, circuit := keyCircuit r.key, slot := keySlot r.key, identity := r.identity }

/-- The COMPOSITION report of a slot (R192). -/
def compositionReport (slot : Nat) (identity : Identity) : WakeRecord :=
  { cause := .composition, circuit := none, slot := some slot, identity := some identity }

/-- Each entry to ACTIVE is reported (R106, R111). -/
def reportActivations (effects : List FltEffect) (s : State) : State :=
  effects.foldl (fun acc e =>
    match e with
    | .activated r => reportWake (faultReport r) acc
    | .removed _ _ => acc) s

/-- The aging minute count at the present moment (R191). -/
def agingNow (s : State) : Nat :=
  match s.pwc.agingSince with
  | some t => s.pwc.agingCount + (s.now - t)
  | none => s.pwc.agingCount

/-- The aging count begins to run, or runs on (R187, R195). -/
def startAging (s : State) : State := { s with pwc := { s.pwc with agingSince := some s.now } }

/-- The aging count stops, keeping its value, short of the sweep it has not made (R191, R196). -/
def stopAging (s : State) : State :=
  { s with pwc := { s.pwc with agingCount := min (agingNow s) (agingPeriod - 1), agingSince := none } }

/-- One standby scan's part in the SUPPLY wake cause: consecutive low readings are counted to 5, and at 5 the flag is
set (R192). -/
def countLowSupply (s : State) : State :=
  if s.sfe.supplyReading < voltageLow then
    let n := min (s.pwc.lowScans + 1) 5
    let s' := { s with pwc := { s.pwc with lowScans := n } }
    if n = 5 then reportWake { cause := .supply, circuit := none, slot := none, identity := none } s' else s'
  else { s with pwc := { s.pwc with lowScans := 0 } }

end Sys2Proof.Machine
end

