-- ==== Sys2Proof/Machine/Display.lean ====
section
/-!
DEFINITION. The Display Reconciler (07): candidates and rank, the re-evaluation of the list, entry ids and versions,
resolved entries, the cluster mirror and acknowledgements.
-/
namespace Sys2Proof.Machine

/-! ### Entries and their records -/

def keySubject (k : FaultKey) : Option Subject :=
  match k with
  | .lamp t _ => some t
  | .nodeLost n => some (.slot n)
  | .disagree _ => none
  | .cadence _ => none

/-- The rank severity of a record, its entry's shown severity (R124). -/
def recordSeverity (p : Params) (r : FaultRecord) : Nat :=
  match r.key with
  | .lamp _ c => p.severity.get c
  | .cadence _ => 7
  | .nodeLost _ => 4
  | .disagree _ => 2

def recordSequence (r : FaultRecord) : Nat := (r.sequence.getD 0).toNat

/-- A live entry is NEW while its record's acknowledged flag is clear and ACKED while it is set (R130). -/
def shownState (r : FaultRecord) : DisplayState := if r.acked then .acked else .new

/-- A new entry of a record, version 0 (R127). -/
def entryOf (p : Params) (id : Nat) (r : FaultRecord) : DisplayEntry :=
  { id := id, kind := r.kind, circuit := keyCircuit r.key, subject := keySubject r.key, identity := r.identity,
    severity := recordSeverity p r, state := shownState r, version := 0, sequence := recordSequence r,
    linger := none }

def DisplayEntry.live (e : DisplayEntry) : Bool := e.state != .resolved

/-- Versions step by one, 15 going to 0 (R129). -/
def stepVersion (v : Nat) : Nat := (v + 1) % 16

/-- What a change of the list is seen by: each entry's id, version and sequence, their order, and the overflow (R137).
The sequence tells an entry from one that joined in its place under the id it freed. -/
abbrev ListView := List (Nat × Nat × Nat) × Nat

def listView (d : Dsr) : ListView := (d.list.map fun e => (e.id, e.version, e.sequence), d.overflow)

/-! ### Candidates and rank (R124, R125) -/

/-- A candidate: a live record by its position, or a RESOLVED entry by its id. -/
structure Candidate where
  severity : Nat
  sequence : Nat
  resolved : Bool
  index : Nat
deriving DecidableEq, Repr

/-- The total order of candidates (R125). -/
def ranksBefore (a b : Candidate) : Bool :=
  if a.severity ≠ b.severity then b.severity < a.severity
  else if a.sequence ≠ b.sequence then a.sequence < b.sequence
  else if a.resolved ≠ b.resolved then b.resolved
  else a.index ≤ b.index

def liveCandidates (p : Params) (records : List (Option FaultRecord)) : List Candidate :=
  (records.zipIdx).filterMap fun (o, i) =>
    match o with
    | some r =>
      if r.live then some { severity := recordSeverity p r, sequence := recordSequence r, resolved := false, index := i }
      else none
    | none => none

def resolvedCandidates (list : List DisplayEntry) : List Candidate :=
  (list.filter fun e => !e.live).map fun e =>
    { severity := 0, sequence := e.sequence, resolved := true, index := e.id }

def rankedCandidates (p : Params) (records : List (Option FaultRecord)) (list : List DisplayEntry) : List Candidate :=
  (liveCandidates p records ++ resolvedCandidates list).insertionSort fun a b => ranksBefore a b = true

/-! ### Entry ids (R128) -/

def nextId (n : Nat) : Nat := if 255 ≤ n then 1 else n + 1

/-- The first id not in use, stepping forward from n. -/
def freeId (used : List Nat) : Nat → Nat → Nat
  | 0, n => n
  | k + 1, n => if n ∈ used then freeId used k (nextId n) else n

/-- The ids records hold (R128). -/
def recordIds (records : List (Option FaultRecord)) : List Nat := records.filterMap fun o => o.bind (·.entryId)

/-! ### Re-evaluation (R126, R127) -/

/-- The list being rebuilt, with the records' entry ids and the id counter. -/
structure Rebuild where
  records : List (Option FaultRecord)
  counter : Nat
  entries : List DisplayEntry
deriving DecidableEq, Repr

/-- One taken candidate joins the rebuilt list: an entry that stays keeps its id, version and display state; a record
that returns takes its own id; a new one is assigned an id (R127, R128). -/
def placeCandidate (p : Params) (old : List DisplayEntry) (kept : List Nat) (b : Rebuild) (k : Candidate) : Rebuild :=
  if k.resolved then
    match old.find? fun e => !e.live && e.id = k.index with
    | some e => { b with entries := b.entries ++ [e] }
    | none => b
  else
    match b.records.getD k.index none with
    | none => b
    | some r =>
      match r.entryId with
      | some id =>
        match old.find? fun e => e.live && e.id = id with
        | some e => { b with entries := b.entries ++ [{ e with severity := recordSeverity p r }] }
        | none => { b with entries := b.entries ++ [entryOf p id r] }
      | none =>
        let id := freeId (kept ++ recordIds b.records) 255 b.counter
        { records := b.records.set k.index (some { r with entryId := some id })
          counter := nextId id
          entries := b.entries ++ [entryOf p id r] }

/-- The list after a re-evaluation, with the entry ids it assigned (R126 to R128). The overflow counts the live
candidates not taken; a RESOLVED entry not taken is removed. -/
def rebuildList (p : Params) (f : Flt) (d : Dsr) : Flt × Dsr :=
  let ranked := rankedCandidates p f.records d.list
  let taken := ranked.take 8
  let kept := (taken.filter (·.resolved)).map (·.index)
  let b := taken.foldl (placeCandidate p d.list kept) { records := f.records, counter := d.idCounter, entries := [] }
  ({ f with records := b.records },
   { d with list := b.entries, idCounter := b.counter,
            overflow := ((ranked.drop 8).filter fun k => !k.resolved).length })

/-- The list re-evaluated once after an event's changes; in ACTIVE a change of the list sends one snapshot (R126,
R137). `before` is the list as it stood before the event. -/
def reevaluate (before : ListView) (s : State) : State :=
  let (f, d) := rebuildList s.params s.flt s.dsr
  let s' := { s with flt := f, dsr := d }
  if s'.pwc.power = .active && listView s'.dsr != before then sendSnapshot s' else s'

/-! ### Hand-overs from the Fault Table (R129 to R132, R134) -/

def lingerStart (s : State) : Countdown :=
  if s.pwc.power = .standby then .paused (ms (s.params.linger * 1000)) else .running (s.now + ms (s.params.linger * 1000))

/-- The entry of a removed record (R131, R132): outright removal, except that a NEW entry of a record removed HEALED
becomes RESOLVED, shows the record's slot, and steps its version. -/
def retireEntry (timer : Countdown) (r : FaultRecord) (healed : Bool) (e : DisplayEntry) : Option DisplayEntry :=
  if e.live && r.entryId = some e.id then
    if healed && e.state = .new then
      some { e with state := .resolved, subject := keySubject r.key, version := stepVersion e.version,
                    linger := some timer }
    else none
  else some e

def retireEntries (timer : Countdown) (effects : List FltEffect) (list : List DisplayEntry) : List DisplayEntry :=
  effects.foldl (fun acc x =>
    match x with
    | .removed r healed => acc.filterMap (retireEntry timer r healed)
    | .activated _ => acc) list

/-- A live entry brought to its record: kind, display state and subject slot are shown content, and a change of any of
them steps the version once (R129, R130, R134). -/
def syncEntry (records : List (Option FaultRecord)) (e : DisplayEntry) : DisplayEntry :=
  if e.live then
    match (records.filterMap id).find? fun r => r.entryId = some e.id with
    | some r =>
      if e.kind = r.kind ∧ e.state = shownState r ∧ e.subject = keySubject r.key then e
      else { e with kind := r.kind, state := shownState r, subject := keySubject r.key, version := stepVersion e.version }
    | none => e
  else e

def setList (list : List DisplayEntry) (s : State) : State := { s with dsr := { s.dsr with list := list } }

/-- What the Fault Table tells, taken by the Power Controller and the Display Reconciler, and the list re-evaluated
once (R106, R126). `owned` is the event's work on the RESOLVED entries the Display Reconciler owns outright. -/
def handOverWith (owned : List DisplayEntry → List DisplayEntry) (effects : List FltEffect) (s : State) : State :=
  let before := listView s.dsr
  let s1 := reportActivations effects s
  let list := (retireEntries (lingerStart s1) effects s1.dsr.list).map (syncEntry s1.flt.records)
  reevaluate before (setList (owned list) s1)

def handOver (effects : List FltEffect) (s : State) : State := handOverWith id effects s

/-- An operation on the Fault Table and its hand-over (R106, R113). -/
def onFaults (op : Flt → FltStep) (s : State) : State :=
  let step := op s.flt
  handOver step.2 (commitFaults step.1 s)

/-! ### RELEARN, CLEAR-FAULTS and the census result (R134, R135) -/

def isLampKind (k : Kind) : Bool := k = .outage || k = .unitLost || k = .overload

/-- The RESOLVED LAMP-family entries of a subject on the circuits of a set leave the list (R135). -/
def dropResolvedLamps (subject : Subject) (set : CircuitSet) (list : List DisplayEntry) : List DisplayEntry :=
  list.filter fun e =>
    !(!e.live && isLampKind e.kind && e.subject = some subject && e.circuit.any fun c => set.getLsbD c.val)

/-- A subject's LAMP-family records and resolved entries removed (R59, R115, R135, R162). -/
def removeLamps (subject : Subject) (set : CircuitSet) (s : State) : State :=
  let step := removeWhere (isLampOf subject set) false s.flt
  handOverWith (dropResolvedLamps subject set) step.2 (commitFaults step.1 s)

/-- CLEAR-FAULTS: every record but NODE-LOST ones, and every RESOLVED entry (R117, R135). -/
def clearFaults (s : State) : State :=
  let step := removeWhere (fun r => r.kind != .nodeLost) false s.flt
  handOverWith (fun list => list.filter DisplayEntry.live) step.2 (commitFaults step.1 s)

/-- Steps 3 to 5 of R134 on a RESOLVED entry: it follows its unit, or leaves with it; with subject REMAINDER it leaves
when the signature changed; entries of CIRCUIT keys stay. The unit is looked up by its identity; an identity the result
does not name leaves the entry unchanged. -/
def censusResolved (oldSlots : List Identity) (res : CensusResult) (e : DisplayEntry) : Option DisplayEntry :=
  if e.live then some e
  else
    match e.subject with
    | some (.slot n) =>
      match e.identity.bind fun id => oldSlots.findIdx? (· = id) with
      | none => some e
      | some k =>
        match res.newSlot (k + 1) with
        | none => none
        | some m => if m = n then some e else some { e with subject := some (.slot m), version := stepVersion e.version }
    | some .remainder => if res.signatureChanged then none else some e
    | none => some e

/-! ### The cluster mirror (R140 to R144) -/

/-- A report matches when the pairs it names are those of the list, no id named twice, and the overflow is the list's
(R141). -/
def reportMatches (r : MirrorContent) (d : Dsr) : Bool :=
  let pairs := r.triples.map fun t => (t.id, t.version)
  let own := d.list.map fun e => (e.id, e.version)
  decide ((r.triples.map (·.id)).Nodup) && pairs.all (own.contains ·) && own.all (pairs.contains ·) &&
    r.overflow = d.overflow

/-- The match decided: IN-STEP and the timer stopped on a match; a mismatch while IN-STEP sends the list again; any
other mismatch changes nothing (R141). -/
def settleMirror (good : Bool) (s : State) : State :=
  if good then { s with dsr := { s.dsr with reconcile := none } } |> setMirror .inStep
  else if s.dsr.mirror = .inStep then sendSnapshot s
  else s

def raiseStale (s : State) : State := { s with dsr := { s.dsr with staleAcks := min (s.dsr.staleAcks + 1) 255 } }

/-- The record of a live entry takes the acknowledged flag (R112, R143). -/
def ackRecord (id : Nat) (f : Flt) : Flt :=
  { f with records := f.records.map fun o => o.map fun r => if r.entryId = some id then { r with acked := true } else r }

/-- One triple's acknowledgement, against the list as the triples before it left it (R143, R144). -/
def acknowledge (t : Triple) (s : State) : State :=
  if t.acked then
    match s.dsr.list.find? (·.id = t.id) with
    | none => raiseStale s
    | some e =>
      if e.version = t.version then
        match e.state with
        | .new =>
          { s with
            flt := ackRecord t.id s.flt
            dsr := { s.dsr with list := s.dsr.list.map fun x =>
              if x.id = t.id then { x with state := .acked, version := stepVersion x.version } else x } }
        | .resolved => setList (s.dsr.list.filter (·.id != t.id)) s
        | .acked => s
      else raiseStale s
  else s

/-- An accepted CLUSTER-REPORT: matched against the list as it stood, the mirror content replaced, and its
acknowledgements taken, with one re-evaluation after them (R140, R143). A mismatch while IN-STEP makes a snapshot at
the match (R141), and acknowledgements that change the list make another (R140): on an idle transmitter the first has
then begun to go out and is not withdrawn (DESIGN CHOICE, log 34). -/
def takeReport (r : MirrorContent) (s : State) : State :=
  let s1 := settleMirror (reportMatches r s.dsr) { s with dsr := { s.dsr with content := r } }
  reevaluate (listView s1.dsr) (r.triples.foldl (fun acc t => acknowledge t acc) s1)

/-! ### Lingers and the reconcile timer over standby (R133, R142, R146, R147) -/

def pauseLinger (now : Nat) (e : DisplayEntry) : DisplayEntry :=
  match e.linger with
  | some (.running d) => { e with linger := some (.paused (d - now)) }
  | _ => e

def resumeLinger (now : Nat) (e : DisplayEntry) : DisplayEntry :=
  match e.linger with
  | some (.paused r) => { e with linger := some (.running (now + r)) }
  | _ => e

/-- At standby entry the list is kept, the lingers pause and the reconcile timer stops (R146). -/
def parkDisplay (s : State) : State :=
  { s with dsr := { s.dsr with list := s.dsr.list.map (pauseLinger s.now), reconcile := none } }

/-- At wake the lingers run on (R147). -/
def unparkDisplay (s : State) : State := setList (s.dsr.list.map (resumeLinger s.now)) s

def displayReport (s : State) : DisplayReport :=
  { mirror := s.dsr.mirror, content := s.dsr.content, remaining := s.dsr.reconcile.map (remainMs s),
    staleAcks := s.dsr.staleAcks, idCounter := s.dsr.idCounter, length := s.dsr.list.length,
    overflow := s.dsr.overflow }

end Sys2Proof.Machine
end

