-- ==== Sys2Proof/Machine/Loads.lean ====
section
/-!
DEFINITION. The Load Table (03): lookup, creation, eviction, aging, learning, RELEARN, and what its store blocks hold.
-/
namespace Sys2Proof.Machine

/-! ### Indices and keys (R44, R46) -/

def entryAt (t : Ldt) (i : Nat) : Option Entry := t.entries.getD i none

def setEntry (i : Nat) (e : Option Entry) (t : Ldt) : Ldt := { t with entries := t.entries.set i e }

def mapEntries (f : Entry → Option Entry) (t : Ldt) : Ldt := { t with entries := t.entries.map fun o => o.bind f }

def editEntry (i : Nat) (f : Entry → Entry) (t : Ldt) : Ldt := setEntry i ((entryAt t i).map f) t

def findEntry (t : Ldt) (k : EntryKey) : Option Nat := t.entries.findIdx? fun o => o.any (·.key = k)

/-- The signature of a chain table: its identities, ascending (R32, R46). -/
def signatureOf (ids : List Identity) : List Identity := ids.insertionSort (· ≤ ·)

/-- Unit entries occupy indices 0 to 23, remainder entries 24 to 27 (R44). -/
def indicesFor (k : EntryKey) : List Nat :=
  match k with
  | .unit _ => List.range 24
  | .remainder _ => [24, 25, 26, 27]

def entryCount (t : Ldt) : Nat := (t.entries.filter Option.isSome).length

/-! ### Runs (R54, R57) -/

/-- A learning run ended: its baseline returns to UNKNOWN (R57). -/
def endRun (x : LoadCell) : LoadCell := if x.base.state = .learning then LoadCell.unknown else x

def endRunsOf (e : Entry) : Entry := { e with cells := e.cells.mapAt fun _ x => endRun x }

/-- Every learning run of the table ended (R57). -/
def endAllRuns (t : Ldt) : Ldt := mapEntries (fun e => some (endRunsOf e)) t

/-! ### Creation and eviction (R48, R49) -/

def freshEntry (k : EntryKey) : Entry :=
  { key := k, age := 0, lock := .opened, inComposition := true, cells := PerCircuit.fill LoadCell.unknown }

/-- An entry that may be evicted: OPEN and not in the composition (R49). -/
def evictable (e : Entry) : Bool := e.lock = .opened && !e.inComposition

/-- Of two indices, the one whose entry is the better victim: the greater age, among equal ages the lower index. The
indices come in ascending order. -/
def betterVictim (t : Ldt) (best : Option Nat) (i : Nat) : Option Nat :=
  match entryAt t i with
  | none => best
  | some e =>
    if evictable e then
      match best with
      | none => some i
      | some b => if ((entryAt t b).elim 0 (·.age)) < e.age then some i else some b
    else best

def victim (t : Ldt) (k : EntryKey) : Option Nat := (indicesFor k).foldl (betterVictim t) none

/-- The index a new entry takes: the lowest empty one, else the victim's (R48). -/
def placeFor (t : Ldt) (k : EntryKey) : Option Nat :=
  match (indicesFor k).find? fun i => (entryAt t i).isNone with
  | some i => some i
  | none => victim t k

def createEntry (t : Ldt) (k : EntryKey) : Ldt :=
  match placeFor t k with
  | some i => setEntry i (some (freshEntry k)) t
  | none => t

/-- Creation for a key the lookup does not find (R48). -/
def ensureEntry (t : Ldt) (k : EntryKey) : Ldt := if (findEntry t k).isSome then t else createEntry t k

/-! ### Lookup at census completion (R47) -/

/-- The keys of a composition: each slot's identity in slot order, then the signature (R47). -/
def compositionKeys (ids : List Identity) : List EntryKey := ids.map EntryKey.unit ++ [.remainder (signatureOf ids)]

/-- Marks, ages and runs of the new composition (R47). -/
def markEntry (keys : List EntryKey) (e : Entry) : Entry :=
  if e.key ∈ keys then { e with inComposition := true, age := 0 }
  else { endRunsOf e with inComposition := false }

/-- The tracking records of a composition (R46). -/
def retrack (ids : List Identity) (t : Ldt) : Ldt :=
  { t with
    slotTrack := ids.map fun id => findEntry t (.unit id)
    signatureTrack := some (findEntry t (.remainder (signatureOf ids))) }

def lookup (ids : List Identity) (t : Ldt) : Ldt :=
  let keys := compositionKeys ids
  retrack ids (keys.foldl ensureEntry (mapEntries (fun e => some (markEntry keys e)) t))

/-- LOADS-FULL: a slot is untracked or the current signature has no entry (R50). -/
def loadsFullDue (t : Ldt) : Bool := t.slotTrack.any Option.isNone || t.signatureTrack.join.isNone

/-! ### Aging (R50, R51) -/

def ageEntry (e : Entry) : Option Entry :=
  if e.inComposition then some e
  else if e.lock = .opened && e.age = 3 then none
  else some { e with age := min (e.age + 1) 3 }

/-- The sweep's removals and ages, then the retries of R50. Before the first census completion the signature has no
tracking record and is not retried (R46). -/
def sweep (ids : List Identity) (t : Ldt) : Ldt :=
  let aged := mapEntries ageEntry t
  match t.signatureTrack with
  | none => aged
  | some _ => retrack ids ((compositionKeys ids).foldl ensureEntry aged)

/-! ### Learning (R54 to R56) -/

def absDiff (a b : Nat) : Nat := if a < b then b - a else a - b

/-- A run's record after a value: a new run, a restart, or one more value (R54, R55). -/
def extendRun (tAbs value volts : Nat) (r : LearningRecord) : LearningRecord :=
  if r.count = 0 ∨ tAbs < absDiff value r.first then
    { count := 1, first := value, sumValue := value, sumVolt := volts }
  else { r with count := r.count + 1, sumValue := r.sumValue + value, sumVolt := r.sumVolt + volts }

/-- A run complete at L values (R56). -/
def completeRun (l : Nat) (cls : LampClass) (r : LearningRecord) : LoadCell :=
  { base := { state := .known, cls := cls, nominal := min (roundHalfUp r.sumValue l) nominalMax,
              vref := roundHalfUp r.sumVolt l }
    learn := LearningRecord.empty }

/-- A learning value taken by an UNKNOWN or LEARNING cell (R54 to R56). -/
def learnCell (tAbs l value volts : Nat) (cls : LampClass) (x : LoadCell) : LoadCell :=
  let r := extendRun tAbs value volts (if x.base.state = .unknown then LearningRecord.empty else x.learn)
  if l ≤ r.count then completeRun l cls r
  else { base := { Baseline.unknown with state := .learning }, learn := r }

/-- A learning value handed to an entry: only an OPEN entry whose baseline is not KNOWN takes it (R54). -/
def learnEntry (c : Circuit) (tAbs l value volts : Nat) (cls : LampClass) (e : Entry) : Entry :=
  let x := e.cells.get c
  if e.lock = .opened ∧ x.base.state ≠ .known then
    { e with cells := e.cells.set c (learnCell tAbs l value volts cls x) }
  else e

/-! ### RELEARN, release and commissioning -/

/-- The named circuits UNKNOWN, whatever they were (R59). -/
def relearnEntry (set : CircuitSet) (e : Entry) : Entry :=
  { e with cells := e.cells.mapAt fun c x => if set.getLsbD c.val then LoadCell.unknown else x }

/-- A released entry: every circuit UNKNOWN, OPEN (R162). -/
def releaseEntry (e : Entry) : Entry :=
  { e with lock := .opened, cells := PerCircuit.fill LoadCell.unknown }

/-- A commissioned entry: the captured circuits KNOWN, every other run ended, COMMISSIONED (R159). -/
def commissionEntry (records : List CaptureRecord) (e : Entry) : Entry :=
  { e with
    lock := .commissioned
    cells := e.cells.mapAt fun c x =>
      match records.find? fun r => r.circuit = c && r.captured.isSome with
      | some r =>
        match r.captured with
        | some k => { base := { state := .known, cls := k.cls, nominal := k.nominal, vref := k.vref },
                      learn := LearningRecord.empty }
        | none => endRun x
      | none => endRun x }

/-! ### The store blocks (R61) -/

/-- A baseline as stored: LEARNING is written as UNKNOWN (R61), and the class of one that is not KNOWN as it is held (R45;
DEDUCED, log 39). -/
def storeEntry (e : Entry) : StoredEntry :=
  { key := e.key, age := e.age, lock := e.lock, baselines := e.cells.mapAt fun _ x => (endRun x).base }

/-- A stored entry in working memory: empty learning records, mark clear (R62). -/
def loadEntry (e : StoredEntry) : Entry :=
  { key := e.key, age := e.age, lock := e.lock, inComposition := false,
    cells := e.baselines.mapAt fun _ b => { base := b, learn := LearningRecord.empty } }

/-- LOADS-A holds indices 0 to 11, LOADS-B 12 to 27 (R61). -/
def blockOfIndex (i : Nat) : StoreBlock := if i < 12 then .loadsA else .loadsB

/-! ### Reading (R45, R53, R60) -/

def isRemainder (k : EntryKey) : Bool :=
  match k with
  | .unit _ => false
  | .remainder _ => true

/-- The class a reader is shown: that of a KNOWN baseline; otherwise FILAMENT in a unit entry and the present legacy
class in a remainder entry (R45). READ-LOADS and the hand-over of R53 are the readers. -/
def shownClass (legacy : LampClass) (k : EntryKey) (b : Baseline) : LampClass :=
  if b.state = .known then b.cls else if isRemainder k then legacy else .filament

def entryReport (p : Params) (e : Entry) : EntryReport :=
  { key := e.key, age := e.age, lock := e.lock, inComposition := e.inComposition
    cells := e.cells.mapAt fun c x =>
      { state := x.base.state, cls := shownClass (p.legacyClass.get c) e.key x.base, nominal := x.base.nominal,
        vref := x.base.vref, count := x.learn.count } }

/-! ### Subjects (R53, R58) -/

/-- The index that serves a subject: of a slot of the table in force, or of the current signature. -/
def servingIndex (t : Ldt) (subject : Subject) : Option Nat :=
  match subject with
  | .slot n => if n = 0 then none else (t.slotTrack.getD (n - 1) none)
  | .remainder => t.signatureTrack.join

end Sys2Proof.Machine
end

