-- ==== Sys2Proof/Machine/Sense.lean ====
section
/-!
DEFINITION. The Sense Front End (01): conversion, windows, phases, settle timing and the standby scan's circuits. What
is done with an offer stands in Judge.lean.
-/
namespace Sys2Proof.Machine

/-! ### Conversion (R2, R3) -/

def sampleCurrent (gain : Nat) (code : BitVec 12) : Nat := min (roundHalfUp (code.toNat * gain) 1000) currentMax

def sampleSupply (code : BitVec 12) : Nat := code.toNat * 10

/-- A code of 4095 marks the sample saturated (R2). -/
def codeSaturated (code : BitVec 12) : Bool := code.toNat = 4095

/-! ### Windows (R3, R4) -/

def Window.start (len : Nat) : Window :=
  { len := len, sumCurrent := 0, sumSupply := 0, count := 0, saturated := false }

def Window.add (w : Window) (current supply : Nat) (saturated : Bool) : Window :=
  { w with
    sumCurrent := w.sumCurrent + current
    sumSupply := w.sumSupply + supply
    count := w.count + 1
    saturated := w.saturated || saturated }

def Window.full (w : Window) : Bool := w.len ≤ w.count

/-- The window mean (R4). -/
def Window.mean (w : Window) : Nat := roundHalfUp w.sumCurrent w.len

/-- The supply mean (R4). -/
def Window.supplyMean (w : Window) : Nat := roundHalfUp w.sumSupply w.len

/-! ### Phases (R5 to R7) -/

/-- A change of phase discards the window, stops the settle timer, and the settle end is absent unless the new phase
gives one (R5). A full window whose completion is not yet taken goes with it (R1, R4; DEDUCED, log 35). -/
def enterPhase (p : Phase) (x : CircuitSense) : CircuitSense :=
  { x with phase := p, settleTimer := none, window := none, done := none, nextStart := none, settleEnd := none }

/-- Settling ends at t: the settle end is set for an ON phase, and its first window begins with the first scan at or
after t (R7). -/
def enterSettled (on : Bool) (t : Nat) (x : CircuitSense) : CircuitSense :=
  if on then { enterPhase .onSettled x with settleEnd := some t, nextStart := some t }
  else enterPhase .offSettled x

/-- Settling begins at t with duration S_c; a settle time of 0 ends it at once (R6, R7). -/
def startSettling (on : Bool) (t settle : Nat) (x : CircuitSense) : CircuitSense :=
  if settle = 0 then enterSettled on t x
  else { enterPhase (if on then .onSettling else .offSettling) x with settleTimer := some (t + ms settle) }

/-- The settle timer's expiry at t (R7). -/
def expireSettle (t : Nat) (x : CircuitSense) : CircuitSense :=
  match x.phase with
  | .onSettling => enterSettled true t x
  | .offSettling => enterSettled false t x
  | _ => x

/-- A settle timer that has run out by t has expired before a scan that starts at t (R7). -/
def settleBefore (t : Nat) (x : CircuitSense) : CircuitSense :=
  match x.settleTimer with
  | some d => if d ≤ t then expireSettle d x else x
  | none => x

/-- Item c of a Function Word. -/
def itemOn (w : FunctionWord) (c : Circuit) : Bool := w.getLsbD c.val

def mapCircuits (f : Circuit → CircuitSense → CircuitSense) (s : State) : State :=
  { s with sfe := { s.sfe with circuits := s.sfe.circuits.mapAt f } }

/-- A command edge of circuit c puts it into settling, from the four phases edges act in (R6). -/
def edgeCircuit (p : Params) (now : Nat) (old new : FunctionWord) (c : Circuit) (x : CircuitSense) : CircuitSense :=
  if itemOn old c = itemOn new c then x
  else
    match x.phase with
    | .offSettling | .offSettled | .onSettling | .onSettled => startSettling (itemOn new c) now (p.settle.get c) x
    | _ => x

/-- A WAITING circuit begins to settle when the word becomes fresh (R12). -/
def freshCircuit (p : Params) (now : Nat) (new : FunctionWord) (c : Circuit) (x : CircuitSense) : CircuitSense :=
  if x.phase = .waiting then startSettling (itemOn new c) now (p.settle.get c) x else x

/-- Staleness puts the circuits of ACTIVE into WAITING (R12). -/
def staleCircuit (x : CircuitSense) : CircuitSense :=
  match x.phase with
  | .offSettling | .offSettled | .onSettling | .onSettled => enterPhase .waiting x
  | _ => x

/-- Standby entry: PARKED-ON keeps the settle end of an ON-SETTLED circuit and otherwise takes the moment of entry
(R14). -/
def parkCircuit (now : Nat) (w : FunctionWord) (c : Circuit) (x : CircuitSense) : CircuitSense :=
  if itemOn w c then
    { enterPhase .parkedOn x with
      settleEnd := some (if x.phase = .onSettled then x.settleEnd.getD now else now) }
  else enterPhase .parkedOff x

/-- Leaving standby: every circuit settles from the moment of wake, or waits when the word is stale (R16). -/
def wakeCircuit (p : Params) (now : Nat) (w : FunctionWord) (stale : Bool) (c : Circuit) (x : CircuitSense) :
    CircuitSense :=
  if stale then enterPhase .waiting x else startSettling (itemOn w c) now (p.settle.get c) x

/-! ### The 2 ms scan (R1, R4, R8, R9) -/

/-- A sample taken into the circuit's window, which starts with the present W when none is in progress; a window
that has its last sample is complete at the end of the scan's period (R1, R4). -/
def takeSample (p : Params) (t current supply : Nat) (saturated : Bool) (x : CircuitSense) : CircuitSense :=
  let w := (x.window.getD (Window.start p.window)).add current supply saturated
  if w.full then { x with window := none, done := some (w, t + scanPeriod), nextStart := none }
  else { x with window := some w }

/-- Whether a scan at t takes a sample of the circuit: OFF-SETTLED windows run back to back (R8); an ON-SETTLED
window begins with the first scan at or after its start time (R9). -/
def takesSample (t : Nat) (x : CircuitSense) : Bool :=
  match x.phase with
  | .offSettled => true
  | .onSettled => x.window.isSome || x.nextStart.any (· ≤ t)
  | _ => false

def scanCircuit (p : Params) (t : Nat) (codes : ScanCodes) (c : Circuit) (x : CircuitSense) : CircuitSense :=
  let x := settleBefore t x
  let code := codes.current.get c
  if takesSample t x then
    takeSample p t (sampleCurrent (p.gain.get c) code) (sampleSupply codes.supply) (codeSaturated code) x
  else x

/-- The supply window runs back to back (R3). -/
def scanSupply (p : Params) (t : Nat) (code : BitVec 12) (f : Sfe) : Sfe :=
  let w := f.supplyWindow.getD { len := p.window, sum := 0, count := 0 }
  let w := { w with sum := w.sum + sampleSupply code, count := w.count + 1 }
  if w.len ≤ w.count then { f with supplyWindow := none, supplyDone := some (w, t + scanPeriod) }
  else { f with supplyWindow := some w }

/-- One scan at t: all nine inputs converted once, every window in progress given its sample (R1). -/
def scanAt (codes : ScanCodes) (t : Nat) (s : State) : State :=
  let f := scanSupply s.params t codes.supply s.sfe
  { s with
    now := t
    sfe := { f with circuits := f.circuits.mapAt (scanCircuit s.params t codes), nextScan := t + scanPeriod } }

/-! ### Window completions (R3, R8, R11) -/

/-- The supply reading of a completed supply window (R3). -/
def SupplyWindow.reading (w : SupplyWindow) : Nat := roundHalfUp w.sum w.len

/-- The supply window's completion at t: the reading, and VOLTAGE from it, left set when an offer of the scan that
ended at t was out of the voltage window (R3, R11). -/
def completeSupply (w : SupplyWindow) (t : Nat) (s : State) : State :=
  { s with sfe := { s.sfe with supplyDone := none, supplyReading := w.reading } }
    |> setVoltage (outOfWindow w.reading || s.sfe.voltageMark = some t)

/-- A zero window's completion: I_zero takes the mean, clamped at 500 mA with LEAK set, and SENSE-SAT follows the
window's mark (R8, R11). -/
def completeZero (c : Circuit) (w : Window) (s : State) : State :=
  let x := s.sfe.circuits.get c
  setCircuit c { x with done := none, zero := min w.mean zeroMax } s
    |> setLeak c (zeroMax < w.mean)
    |> setSenseSat c w.saturated

/-- The start of the window after an instant at t: J less the W scans of the window, after the instant (R9). The J and
the W are those of the instant (R13 says so of J; of W it is DEDUCED, log 38). -/
def nextWindowStart (p : Params) (t : Nat) : Nat := t + ms p.interval - p.window * scanPeriod

end Sys2Proof.Machine
end

