-- ==== Sys2Proof/Machine/Rules.lean ====
section
/-!
DEFINITION. Qualification rules and the cadence watches' evaluation (04): matching, roles, sets, the action of an
offer, rule writes, and the loads of the watches.
-/
namespace Sys2Proof.Machine

/-! ### Matching (R64 to R67) -/

def ruleAt (rules : List Rule) (n : Nat) : Rule := rules.getD n (Rule.blank n)

/-- A single rule against the Function Word (R64): EQUAL when every item of the mask is as the value says. -/
def ruleMatches (r : Rule) (w : FunctionWord) : Bool :=
  match r.sense with
  | .equal => (w ^^^ r.value) &&& r.mask = 0
  | .different => (w ^^^ r.value) &&& r.mask ≠ 0

/-- A head names itself (R65). -/
def isHead (rules : List Rule) (n : Nat) : Bool := (ruleAt rules n).head = n

/-- The rules a head's member set names, other than the head itself (R65). -/
def namedMembers (rules : List Rule) (h : Nat) : List Nat :=
  (List.range 32).filter fun m => (ruleAt rules h).members.getLsbD m && m != h

/-- The role of a rule (R65). -/
def roleOf (rules : List Rule) (n : Nat) : Role :=
  let h := (ruleAt rules n).head
  if h = n then .head
  else if isHead rules h && (ruleAt rules h).members.getLsbD n then .member h
  else .orphan

/-- A named rule breaks a head's set when it is disabled or its head number names another rule (R67). -/
def breaks (rules : List Rule) (h m : Nat) : Bool :=
  !(ruleAt rules m).enabled || (ruleAt rules m).head != h

/-- The rules that break a head's set, ascending (R67, R74). -/
def breakers (rules : List Rule) (h : Nat) : List Nat := (namedMembers rules h).filter (breaks rules h)

/-- The set of head h matches for circuit c (R66). -/
def setMatches (rules : List Rule) (w : FunctionWord) (h : Nat) (c : Circuit) : Bool :=
  let r := ruleAt rules h
  isHead rules h && r.circuits.getLsbD c.val && r.enabled && (breakers rules h).isEmpty && ruleMatches r w &&
    (namedMembers rules h).all fun m => ruleMatches (ruleAt rules m) w

/-- The heads whose set matches for circuit c, ascending, among those of the actions named. -/
def matchingHeads (rules : List Rule) (w : FunctionWord) (c : Circuit) (acts : Action → Bool) : List Nat :=
  (List.range 32).filter fun h => acts (ruleAt rules h).action && setMatches rules w h c

/-! ### The action of an offer (R68, R69) -/

/-- A set with action HOLD matches for c (R68, R81). -/
def holdMatches (rules : List Rule) (w : FunctionWord) (c : Circuit) : Bool :=
  !(matchingHeads rules w c (· = .hold)).isEmpty

/-- The action chosen for an offer of c, with the WIDEN factor F, 1 unless the action is WIDEN (R68, R69). -/
def chooseAction (rules : List Rule) (w : FunctionWord) (c : Circuit) : Action × Nat :=
  if holdMatches rules w c then (.hold, 1)
  else
    match matchingHeads rules w c (fun a => a = .judge || a = .widen) with
    | [] => (.judge, 1)
    | h :: _ =>
      let r := ruleAt rules h
      if r.action = .widen then (.widen, r.param) else (.judge, 1)

/-! ### Rule writes (R72) -/

/-- The nearest multiple of 10, half up (R72). -/
def roundTen (n : Nat) : Nat := roundHalfUp n 10 * 10

/-- The parameter as stored, by the action (R72). -/
def storedParam (action : Action) (n : Nat) : Nat :=
  match action with
  | .widen => clamp 2 8 n
  | .cadence => roundTen (clamp 200 5000 n)
  | .judge | .hold => 0

/-- A rule after the adjustments of R72. -/
def adjustRule (r : Rule) : Rule := { r with value := r.value &&& r.mask, param := storedParam r.action r.param }

/-! ### Reading a rule (R74) -/

def setReport (rules : List Rule) (w : FunctionWord) (h : Nat) : SetReport :=
  { breakers := breakers rules h
    matching := allCircuits.foldl
      (fun acc c => if setMatches rules w h c then acc ||| (1#8 <<< c.val) else acc) 0#8 }

def ruleReply (rules : List Rule) (w : FunctionWord) (n : Nat) : TxRecord :=
  .readRule n (ruleAt rules n) (roleOf rules n) (if isHead rules n then some (setReport rules w n) else none)

/-! ### Cadence watches (R76 to R78, R82) -/

/-- The smallest period among the CADENCE sets that match for c (R77). -/
def cadencePeriod (rules : List Rule) (w : FunctionWord) (c : Circuit) : Option Nat :=
  ((matchingHeads rules w c (· = .cadence)).map fun h => (ruleAt rules h).param).min?

/-- The fast-flash request that halves the loads of a watch: left for TURN-L, right for TURN-R (R78). -/
def halved (f : Flt) (c : Circuit) : Bool := (c = 0 && f.fastLeft) || (c = 1 && f.fastRight)

/-- The value a load sets, in ms (R78). -/
def loadValue (f : Flt) (c : Circuit) (period : Nat) : Nat := if halved f c then period / 2 else period

/-- A load at the present moment (R78). -/
def loadWatch (s : State) (c : Circuit) (period : Nat) : Watch :=
  let v := loadValue s.flt c period
  { armed := some { period := period, expires := s.now + ms v }, load := v }

/-- A watch DISARMED; the load value stays (R82). -/
def disarmWatch (x : Watch) : Watch := { x with armed := none }

/-- A watch after an evaluation (R77). -/
def evaluateWatch (s : State) (c : Circuit) (x : Watch) : Watch :=
  match cadencePeriod s.jge.rules s.hlc.word c, x.armed with
  | none, _ => disarmWatch x
  | some p, none => loadWatch s c p
  | some p, some a => { x with armed := some { a with period := p } }

def setWatches (f : Circuit → Watch → Watch) (s : State) : State :=
  { s with jge := { s.jge with watches := s.jge.watches.mapAt f } }

def evaluateWatches (s : State) : State := setWatches (evaluateWatch s) s

def disarmWatches (s : State) : State := setWatches (fun _ x => disarmWatch x) s

/-- A watch's outcome is withheld while a census runs, while VOLTAGE is set, or while a HOLD set matches (R81). -/
def withheld (s : State) (c : Circuit) : Bool :=
  s.clc.census.isSome || s.sfe.voltage || holdMatches s.jge.rules s.hlc.word c

end Sys2Proof.Machine
end

