-- ==== Sys2Proof/Machine/Judge.lean ====
section
/-!
DEFINITION. Reconciliation arithmetic (05): the hand-overs of an offer, the judgement itself, its batch, its learning
values and its capture values.
-/
namespace Sys2Proof.Machine

/-! ### The offer and the hand-overs (R10, R40, R53) -/

structure Offer where
  circuit : Circuit
  time : Nat
  mean : Nat
  zero : Nat
  volts : Nat
  saturated : Bool
  settleEnd : Option Nat
  parked : Bool
deriving DecidableEq, Repr

/-- The serving entry as handed over: its index, lock and circuit baseline (R53). -/
structure Tracked where
  index : Nat
  lock : Lock
  base : Baseline
deriving DecidableEq, Repr

/-- One slot as handed over (R40, R53): the latest report when it qualifies, the serving entry unless untracked. -/
structure SlotView where
  slot : Nat
  identity : Identity
  state : SlotState
  lamps : PerCircuit Nat
  report : Option Report
  track : Option Tracked
deriving DecidableEq, Repr

/-- A report qualifies when it arrived after the settle end and is no more than 300 ms old at the instant (R40). -/
def qualifies (settleEnd : Option Nat) (time : Nat) (l : LatestReport) : Bool :=
  settleEnd.any (· < l.arrival) && time ≤ l.arrival + reportMaxAge

/-- A baseline as it is read, with the class a reader is shown (R45). -/
def readBaseline (p : Params) (c : Circuit) (e : Entry) : Baseline :=
  let b := (e.cells.get c).base
  { b with cls := shownClass (p.legacyClass.get c) e.key b }

/-- The serving entry of an index, its baseline read at this moment (R45, R53). -/
def trackedAt (p : Params) (t : Ldt) (c : Circuit) (i : Option Nat) : Option Tracked :=
  match i with
  | none => none
  | some k => (entryAt t k).map fun e => { index := k, lock := e.lock, base := readBaseline p c e }

def slotView (s : State) (o : Offer) (x : Slot) (n : Nat) : SlotView :=
  { slot := n, identity := x.identity, state := x.state, lamps := x.lamps
    report := (x.latest.filter (qualifies o.settleEnd o.time)).map (·.report)
    track := trackedAt s.params s.ldt o.circuit (servingIndex s.ldt (.slot n)) }

def slotViews (s : State) (o : Offer) : List SlotView :=
  s.clc.table.zipIdx.map fun (x, i) => slotView s o x (i + 1)

def remainderView (s : State) (c : Circuit) : Option Tracked := trackedAt s.params s.ldt c (servingIndex s.ldt .remainder)

/-! ### Measured current, baselines and thresholds (R86 to R88) -/

def measured (o : Offer) : Nat := if o.zero < o.mean then o.mean - o.zero else 0

/-- The adjusted baseline adj(B) at V (R87). -/
def adjusted (v : Nat) (b : Baseline) : Nat :=
  match b.cls with
  | .regulated => min b.nominal currentMax
  | .filament => min (roundHalfUp (b.nominal * v) b.vref) currentMax

/-- The levels of a judgement: the WIDEN factor and the circuit's thresholds (R88). -/
structure Levels where
  factor : Nat
  tAbs : Nat
  tPm : Nat
  tOver : Nat
deriving DecidableEq, Repr

def Levels.zero (l : Levels) : Nat := l.factor * l.tAbs
def Levels.deficit (l : Levels) (e : Nat) : Nat := l.factor * max l.tAbs (ceilPerMille e l.tPm)
def Levels.excess (l : Levels) (e : Nat) : Nat := l.factor * max l.tAbs (ceilPerMille e l.tOver)

/-! ### Per-node outcomes (R90 to R92) -/

/-- A slot is REPORTED when it is PRESENT with a qualifying report, and POOL otherwise (R90). -/
def SlotView.reported (v : SlotView) : Bool := v.state = .present && v.report.isSome

def energizedFor (c : Circuit) (r : Report) : Bool := r.energized.getLsbD c.val

def outageFor (c : Circuit) (r : Report) : Bool := r.outage.get c != 0

/-- The outcome of a reported unit with a KNOWN baseline, first line that applies (R91). -/
def knownKind (l : Levels) (c : Circuit) (r : Report) (e : Nat) : Option Kind :=
  let i := r.current.get c
  if !energizedFor c r then some .unitLost
  else if i ≤ l.zero ∧ 2 * l.zero < e then some .unitLost
  else if (l.deficit e : Int) ≤ (e : Int) - i ∨ outageFor c r then some .outage
  else if (l.excess e : Int) ≤ (i : Int) - e then some .overload
  else none

/-- The outcome of a unit judged on its report alone (R92). -/
def aloneKind (c : Circuit) (r : Report) : Option Kind :=
  if !energizedFor c r then some .unitLost else if outageFor c r then some .outage else none

/-- The outcome of a REPORTED slot; absent where R92 gives it none. -/
def nodeVerdict (l : Levels) (c : Circuit) (volts : Nat) (v : SlotView) (r : Report) : Option Verdict :=
  let alone : Verdict :=
    { key := .lamp (.slot v.slot) c, kind := aloneKind c r, identity := some v.identity, expected := 0, deficit := 0 }
  match v.track with
  | none => some alone
  | some t =>
    if t.base.state = .known then
      let e := adjusted volts t.base
      some { key := .lamp (.slot v.slot) c, kind := knownKind l c r e, identity := some v.identity, expected := e,
             deficit := (e : Int) - r.current.get c }
    else if t.lock = .commissioned then some alone
    else none

def nodeVerdicts (l : Levels) (c : Circuit) (volts : Nat) (views : List SlotView) : List Verdict :=
  (views.filter SlotView.reported).filterMap fun v => v.report.bind (nodeVerdict l c volts v)

/-! ### Residual and pool (R93 to R97) -/

def reportedSum (c : Circuit) (views : List SlotView) : Nat :=
  ((views.filter SlotView.reported).map fun v => v.report.elim 0 fun r => r.current.get c).sum

def poolSlots (views : List SlotView) : List SlotView := views.filter fun v => !v.reported

def knownBase (t : Option Tracked) : Option Baseline := (t.map (·.base)).filter fun b => b.state = .known

/-- Every pool baseline KNOWN: the remainder's and every POOL slot's (R94). -/
def poolKnown (views : List SlotView) (rem : Option Tracked) : Bool :=
  (knownBase rem).isSome && (poolSlots views).all fun v => (knownBase v.track).isSome

def memberShare (volts : Nat) (t : Option Tracked) : Nat := (knownBase t).elim 0 (adjusted volts)

/-- E_r (R94). -/
def poolExpectation (volts : Nat) (views : List SlotView) (rem : Option Tracked) : Nat :=
  min (memberShare volts rem + ((poolSlots views).map fun v => memberShare volts v.track).sum) currentMax

/-- The pool outcome, first line that applies (R95). -/
def poolKind (l : Levels) (r : Int) (e : Nat) : Option Kind :=
  let m : Int := max r 0
  if r ≤ l.zero ∧ l.deficit e ≤ e then some .unitLost
  else if (l.deficit e : Int) ≤ (e : Int) - m then some .outage
  else if (l.excess e : Int) ≤ m - e then some .overload
  else none

/-- The subject a significant pool outcome is attributed to (R96). -/
def poolSubject (volts : Nat) (views : List SlotView) (rem : Option Tracked) : Subject :=
  match (poolSlots views).filter fun v => memberShare volts v.track != 0 with
  | [v] => if memberShare volts rem = 0 then .slot v.slot else .remainder
  | _ => .remainder

def slotIdentity (views : List SlotView) (t : Subject) : Option Identity :=
  match t with
  | .slot n => (views.find? (·.slot = n)).map (·.identity)
  | .remainder => none

def poolVerdict (c : Circuit) (kind : Option Kind) (e : Nat) (r : Int) (views : List SlotView) (t : Subject) : Verdict :=
  { key := .lamp t c, kind := kind, identity := slotIdentity views t, expected := e, deficit := (e : Int) - max r 0 }

/-- The pool's outcomes: a significant one for its subject alone, GOOD for every key the pool judged (R97). -/
def poolVerdicts (c : Circuit) (kind : Option Kind) (e : Nat) (r : Int) (views : List SlotView) (t : Subject) :
    List Verdict :=
  match kind with
  | some _ => [poolVerdict c kind e r views t]
  | none =>
    ((poolSlots views).map fun v => poolVerdict c none e r views (.slot v.slot)) ++
      [poolVerdict c none e r views .remainder]

def disagreeVerdict (c : Circuit) (significant : Bool) (sum i : Nat) : Verdict :=
  let e := min sum currentMax
  { key := .disagree c, kind := if significant then some .disagree else none, identity := none, expected := e,
    deficit := (e : Int) - i }

/-! ### The judgement (R83 to R85, R99) -/

/-- What a judgement that is not held gives: its residual, its batch in order, and the pool's part of the summary. -/
structure Judgement where
  residual : Int
  batch : List Verdict
  expectation : Option Nat
  pool : PoolResult
  subject : Option Subject
deriving DecidableEq, Repr

def poolResultOf (k : Option Kind) : PoolResult :=
  match k with
  | none => .good
  | some .outage => .outage
  | some .unitLost => .unitLost
  | some _ => .overload

def judgement (l : Levels) (o : Offer) (views : List SlotView) (rem : Option Tracked) : Judgement :=
  let c := o.circuit
  let i := measured o
  let sum := reportedSum c views
  let r : Int := (i : Int) - sum
  let disagree : Bool := r < -(l.zero : Int)
  let known := poolKnown views rem
  let e := poolExpectation o.volts views rem
  let first := nodeVerdicts l c o.volts views ++ [disagreeVerdict c disagree sum i]
  if disagree then
    { residual := r, batch := first, expectation := if known then some e else none, pool := .preempted, subject := none }
  else if known then
    let k := poolKind l r e
    let t := poolSubject o.volts views rem
    { residual := r, batch := first ++ poolVerdicts c k e r views t, expectation := some e, pool := poolResultOf k,
      subject := some t }
  else { residual := r, batch := first, expectation := none, pool := .notMade, subject := none }

/-- The held cause, the first that applies (R83, R85). -/
def heldCause (running : Bool) (volts : Nat) (a : Action) : HeldCause :=
  if running then .census else if outOfWindow volts then .voltage else if a = .hold then .rule else .none

def levelsOf (p : Params) (c : Circuit) (factor : Nat) : Levels :=
  { factor := factor, tAbs := p.tAbs.get c, tPm := p.tPm.get c, tOver := p.tOver.get c }

/-- The judgement of an offer, absent when it is held; with the action, the factor and the held cause. -/
structure Taken where
  action : Action
  factor : Nat
  held : HeldCause
  views : List SlotView
  result : Option Judgement
deriving DecidableEq, Repr

def takeOffer (o : Offer) (s : State) : Taken :=
  let a := chooseAction s.jge.rules s.hlc.word o.circuit
  let held := heldCause s.clc.census.isSome o.volts a.1
  let views := slotViews s o
  { action := a.1, factor := a.2, held := held, views := views
    result := if held = .none then
        some (judgement (levelsOf s.params o.circuit a.2) o views (remainderView s o.circuit))
      else none }

/-- The judgement summary an offer leaves (R85). -/
def summaryOf (o : Offer) (t : Taken) : Summary :=
  { time := o.time, mean := o.mean, zero := o.zero, volts := o.volts, saturated := o.saturated, parked := o.parked
    measured := measured o, action := t.action, factor := t.factor, held := t.held
    residual := t.result.map (·.residual), expectation := t.result.bind (·.expectation)
    pool := t.result.elim .absent (·.pool), poolSubject := t.result.bind (·.subject) }

def setSummary (c : Circuit) (x : Summary) (s : State) : State :=
  { s with jge := { s.jge with summaries := s.jge.summaries.set c (some x) } }

/-- An offer's summary entered and its batch taken by the Fault Table, with what that table has to tell (R85, R106). -/
def judgeOffer (o : Offer) (s : State) : State × List FltEffect :=
  let t := takeOffer o s
  let s1 := setSummary o.circuit (summaryOf o t) s
  match t.result with
  | none => (s1, [])
  | some j =>
    let step := applyBatch s.params j.batch s1.flt
    (commitFaults step.1 s1, step.2)

/-! ### Learning and capture values (R54, R100, R156) -/

/-- A node unit is usable: tracked, its report qualifies, shows no outage flag for c and shows c energized (R54). The
Judgement Engine reads a STALE or LOST slot as a pool member whatever its report (02, section 2.3), whose report is not
used for c at the instant (R90), and decides usability from the hand-overs of the outcomes (R100): so the report that
qualifies is that of a PRESENT slot (DEDUCED, log 33), and R90 bars the others as R57 bars all values in a standby
entry. -/
def slotUsable (c : Circuit) (v : SlotView) : Bool :=
  v.track.isSome && v.reported && v.report.any fun r => !outageFor c r && energizedFor c r

/-- The remainder is usable: every slot has a qualifying report, none is STALE or LOST, and r is 0 or more (R54). -/
def remainderUsable (views : List SlotView) (rem : Option Tracked) (r : Int) : Bool :=
  rem.isSome && (views.all fun v => v.report.isSome && v.state = .present) && 0 ≤ r

def learnAt (i : Nat) (c : Circuit) (p : Params) (value volts : Nat) (cls : LampClass) (t : Ldt) : Ldt :=
  editEntry i (learnEntry c (p.tAbs.get c) p.learnCount value volts cls) t

/-- One usable slot's learning value (R54). -/
def learnSlot (p : Params) (c : Circuit) (volts : Nat) (t : Ldt) (v : SlotView) : Ldt :=
  if slotUsable c v then
    match v.track, v.report with
    | some k, some r => learnAt k.index c p (r.current.get c) volts (r.cls.get c) t
    | _, _ => t
  else t

/-- The learning values of an instant, slots ascending and then the remainder (R100). -/
def learnAll (p : Params) (o : Offer) (views : List SlotView) (rem : Option Tracked) (r : Int) (t : Ldt) : Ldt :=
  let t1 := views.foldl (learnSlot p o.circuit o.volts) t
  match rem with
  | some k =>
    if remainderUsable views rem r then
      learnAt k.index o.circuit p r.toNat o.volts (p.legacyClass.get o.circuit) t1
    else t1
  | none => t1

/-- A WAITING capture record takes a value as a learning run takes it (R156). -/
def captureValue (p : Params) (c : Circuit) (value volts : Nat) (cls : LampClass) (r : CaptureRecord) : CaptureRecord :=
  if r.captured.isSome || r.circuit != c then r
  else
    let run := extendRun (p.tAbs.get c) value volts
      { count := r.count, first := r.first, sumValue := r.sumValue, sumVolt := r.sumVolt }
    { r with
      count := run.count, first := run.first, sumValue := run.sumValue, sumVolt := run.sumVolt
      captured := if p.learnCount ≤ run.count then
          some { nominal := min (roundHalfUp run.sumValue p.learnCount) nominalMax, cls := cls,
                 vref := roundHalfUp run.sumVolt p.learnCount }
        else none }

/-- The value and class the capture's target gives at an instant, when it is usable (R100). -/
def targetValue (p : Params) (c : Circuit) (views : List SlotView) (rem : Option Tracked) (r : Int) (t : Subject) :
    Option (Nat × LampClass) :=
  match t with
  | .slot n =>
    match views.find? (·.slot = n) with
    | some v => if slotUsable c v then v.report.map fun x => (x.current.get c, x.cls.get c) else none
    | none => none
  | .remainder => if remainderUsable views rem r then some (r.toNat, p.legacyClass.get c) else none

def captureAll (p : Params) (o : Offer) (views : List SlotView) (rem : Option Tracked) (r : Int) (v : Svc) : Svc :=
  if v.state = .capturing then
    match v.capture with
    | some k =>
      match targetValue p o.circuit views rem r k.target with
      | some (value, cls) =>
        { v with capture := some { k with records := k.records.map (captureValue p o.circuit value o.volts cls) } }
      | none => v
    | none => v
  else v

/-- The values an ACTIVE offer hands on after its batch (R100): capture values while a capture runs, and learning
values unless a standby entry is in progress (R57). -/
def handValues (o : Offer) (t : Taken) (rem : Option Tracked) (s : State) : State :=
  match t.result with
  | none => s
  | some j =>
    { s with
      ldt := if s.pwc.standbyEntry then s.ldt else learnAll s.params o t.views rem j.residual s.ldt
      svc := captureAll s.params o t.views rem j.residual s.svc }

end Sys2Proof.Machine
end

