-- ==== Sys2Proof/Machine/Service.lean ====
section
/-!
DEFINITION. The Service Controller (08): sticky errors, the ends of operations, what a service state makes of a
request, and the tests of the two BEGINs.
-/
namespace Sys2Proof.Machine

/-! ### Sticky errors and SERVICE-DONE (R150, R153) -/

def stickWith (r : ServiceResult) (e : Sticky) : Sticky :=
  match r with
  | .done => e
  | .sequence => { e with sequence := true }
  | .aborted => { e with aborted := true }
  | .mismatch => { e with mismatch := true }
  | .incomplete => { e with incomplete := true }
  | .store => { e with store := true }

def setSticky (r : ServiceResult) (s : State) : State :=
  { s with svc := { s.svc with sticky := stickWith r s.svc.sticky } }

/-! ### The ends of a capture and of a pending release -/

/-- A capture ends without writing, with its error and a SERVICE-DONE; its records stay readable (R150, R157). -/
def endCapture (r : ServiceResult) (s : State) : State :=
  let target := s.svc.capture.elim Subject.remainder (·.target)
  { s with svc := { s.svc with state := .idle, captureTimer := none } }
    |> setSticky r
    |> send (.serviceDone .commission (.subject target) r none)

/-- A pending release ends without any change to the entry, with its error and a SERVICE-DONE (R152, R161). -/
def endRelease (r : ServiceResult) (s : State) : State :=
  let index := s.svc.release.elim 0 (·.index)
  { s with svc := { s.svc with state := .idle, release := none } }
    |> setSticky r
    |> send (.serviceDone .release (.index index) r none)

/-- A request that breaks the operation ends it SEQUENCE (R154). -/
def breakOperation (s : State) : State :=
  match s.svc.state with
  | .capturing => endCapture .sequence s
  | .releasePending => endRelease .sequence s
  | .idle | .writing => s

/-- A census start ends a capture ABORTED (R157). -/
def censusEndsCapture (s : State) : State := if s.svc.state = .capturing then endCapture .aborted s else s

/-- Service mode turns off (R152). -/
def serviceOff (s : State) : State :=
  let s1 := { s with svc := { s.svc with mode := false } }
  match s.svc.state with
  | .idle => s1
  | .capturing => endCapture .aborted s1
  | .releasePending => endRelease .aborted s1
  | .writing =>
    setSticky .aborted
      { s1 with svc := { s1.svc with write := s1.svc.write.map fun w => { w with aborted := true } } }

/-! ### Requests during an operation (R154) -/

/-- What the Service Controller makes of a record before its owner sees it. -/
inductive Verdict154 where
  | pass
  | refused (r : Reason)
  | breaks
deriving DecidableEq, Repr

/-- "Any other request" of R154's table. -/
def otherRequest (st : ServiceState) : Verdict154 :=
  match st with
  | .idle => .pass
  | .capturing | .releasePending => .breaks
  | .writing => .refused .busy

/-- R154 by kind, service mode and service state. COMMISSION-BEGIN, RELEASE-BEGIN, CLEAR-FAULTS and SERVICE-RESET
outside service mode are refused NOT-IN-SERVICE first (R153, R155, R161, R163; log 10), and STORE-CONFIG is then passed
straight on (R185). -/
def serviceVerdict (kind : Byte) (mode : Bool) (st : ServiceState) : Verdict154 :=
  match kind.toNat with
  | 0x01 | 0x02 | 0x20 | 0x21 => .pass
  | 0x16 =>
    match st with
    | .idle | .capturing => .pass
    | .releasePending => .breaks
    | .writing => .refused .busy
  | 0x13 => if mode then (if st = .writing then .refused .busy else .pass) else .refused .notInService
  | 0x12 => if st = .writing then .refused .busy else .pass
  | 0x15 =>
    match st with
    | .idle => .refused .sequence
    | .capturing => .pass
    | .releasePending => .breaks
    | .writing => .refused .busy
  | 0x18 =>
    match st with
    | .idle => .refused .sequence
    | .capturing => .breaks
    | .releasePending => .pass
    | .writing => .refused .busy
  | 0x14 | 0x17 | 0x19 => if mode then otherRequest st else .refused .notInService
  | 0x0D => if mode then otherRequest st else .pass
  | _ => otherRequest st

/-! ### COMMISSION-BEGIN (R155) -/

def slotOf (s : State) (n : Nat) : Option Slot := if n = 0 then none else s.clc.table[n - 1]?

/-- A circuit on which the slot has lamp positions fitted is missing from the set (R155). -/
def omitsLamp (x : Slot) (set : CircuitSet) : Bool :=
  allCircuits.any fun c => 1 ≤ x.lamps.get c && !set.getLsbD c.val

/-- The capture a COMMISSION-BEGIN starts: its records WAITING, one for each circuit of the set (R155), in ascending
circuit number, the order in which READ-CAPTURE gives them (R164 states none: PRESUMED, log 6). Before its first value a record
of count 0 holds the first value 0, which READ-CAPTURE shows, and sums of 0 (DESIGN CHOICE, log 43). -/
def newCapture (target : Subject) (identity : Identity) (index : Nat) (set : CircuitSet) : Capture :=
  { target := target, identity := identity, index := index, circuits := set
    records := (allCircuits.filter fun c => set.getLsbD c.val).map fun c =>
      { circuit := c, count := 0, first := 0, sumValue := 0, sumVolt := 0, captured := none } }

def anySticky (e : Sticky) : Bool := e.sequence || e.aborted || e.mismatch || e.incomplete || e.store

/-- What a COMMISSION-BEGIN's tests 6 to 8 answer for a target (R155): a refusal, or the capture to start. -/
def beginCapture (s : State) (target : Subject) (set : CircuitSet) : Except Reason Capture :=
  match servingIndex s.ldt target with
  | none => .error .state
  | some i =>
    match entryAt s.ldt i with
    | none => .error .state
    | some e =>
      match target with
      | .slot n =>
        match slotOf s n with
        | none => .error .state
        | some x =>
          if x.state ≠ .present then .error .state
          else if e.lock = .commissioned then .error .locked
          else if omitsLamp x set then .error .range
          else .ok (newCapture target x.identity i set)
      | .remainder =>
        if e.lock = .commissioned then .error .locked
        else
          match e.key with
          | .remainder sig => .ok (newCapture target (BitVec.ofNat 48 sig.length) i set)
          | .unit _ => .error .state

/-- A capture begins: CAPTURING, the window timer at 120 s (R155). -/
def startCapture (k : Capture) (s : State) : State :=
  { s with svc := { s.svc with
      state := .capturing, capture := some k, captureTimer := some (s.now + captureTime) } }

/-- Every record of a capture is CAPTURED (R158). -/
def captureComplete (k : Capture) : Bool := k.records.all fun r => r.captured.isSome

/-! ### RELEASE-BEGIN (R161) -/

/-- The release identity: the unit identity, or the lowest of the signature, or zero (R161). -/
def releaseIdentity (k : EntryKey) : Identity :=
  match k with
  | .unit id => id
  | .remainder [] => 0
  | .remainder (id :: rest) => rest.foldl (fun a b => if b < a then b else a) id

def startRelease (index : Nat) (id : Identity) (s : State) : State :=
  { s with svc := { s.svc with
      state := .releasePending
      release := some { index := index, identity := id, expires := s.now + releaseTime } } }

def showCapture (k : Capture) : CaptureShown :=
  { target := k.target, identity := k.identity, index := k.index, circuits := k.circuits
    records := k.records.map fun r =>
      { circuit := r.circuit, count := r.count, first := r.first, captured := r.captured } }

/-- The content of a READ-CAPTURE reply (R164). -/
def captureReport (s : State) : CaptureReport :=
  { mode := s.svc.mode, state := s.svc.state, sticky := s.svc.sticky
    window := s.svc.captureTimer.map (remainMs s)
    release := s.svc.release.map fun r => remainMs s r.expires
    capture := s.svc.capture.map showCapture }

/-- The subject an entry serves: a slot of the table in force, or the current signature (R162). -/
def servedSubject (t : Ldt) (i : Nat) : Option Subject :=
  match t.slotTrack.findIdx? (· = some i) with
  | some k => some (.slot (k + 1))
  | none => if t.signatureTrack.join = some i then some .remainder else none

end Sys2Proof.Machine
end

