-- ==== Sys2Proof/Machine/Store.lean ====
section
/-!
DEFINITION. The Store Controller (10): block copies, the write queue, the load at start-up.
-/
namespace Sys2Proof.Machine

/-- Whether a block's store copy is good (R181). -/
def Stc.good (c : Stc) (b : StoreBlock) : Bool :=
  match b with
  | .config => c.config.good paramsBytes
  | .rules => c.rules.good rulesBytes
  | .loadsA => c.loadsA.good loadsBytes
  | .loadsB => c.loadsB.good loadsBytes

/-- The copy after its write, as the read-back found it (R184). -/
def Copy.ended {α : Type} (bytes : α → List Byte) (good : Bool) (c : Copy α) : Copy α :=
  if good then Copy.sealed bytes c.content else Copy.spoiled bytes c.content

def storedEntries (t : Ldt) : List (Option StoredEntry) := t.entries.map fun o => o.map storeEntry

/-- The write of a block begins with the block as it stands in working memory, and its CRC does not match until the
write ends (R61, R181, R183); a commissioning or release waiting for this block knows that its write has begun. -/
def beginWrite (b : StoreBlock) (s : State) : State :=
  let c := s.stc
  let c' : Stc :=
    match b with
    | .config => { c with config := Copy.spoiled paramsBytes s.params }
    | .rules => { c with rules := Copy.spoiled rulesBytes s.jge.rules }
    | .loadsA => { c with loadsA := Copy.spoiled loadsBytes ((storedEntries s.ldt).take 12) }
    | .loadsB => { c with loadsB := Copy.spoiled loadsBytes ((storedEntries s.ldt).drop 12) }
  { s with
    stc := { c' with writing := some b }
    svc := { s.svc with write := s.svc.write.map fun w => if w.block = b then { w with begun := true } else w } }

/-- A write asked for: it begins at once when none is in progress, and otherwise joins the queue unless the block is
waiting there already (R183). -/
def askWrite (b : StoreBlock) (s : State) : State :=
  match s.stc.writing with
  | none => beginWrite b s
  | some _ =>
    if b ∈ s.stc.queue then s else { s with stc := { s.stc with queue := s.stc.queue ++ [b] } }

/-- The block's copy after its write (R184). -/
def closeCopy (b : StoreBlock) (good : Bool) (c : Stc) : Stc :=
  match b with
  | .config => { c with config := c.config.ended paramsBytes good }
  | .rules => { c with rules := c.rules.ended rulesBytes good }
  | .loadsA => { c with loadsA := c.loadsA.ended loadsBytes good }
  | .loadsB => { c with loadsB := c.loadsB.ended loadsBytes good }

/-- The next block of the queue begins at once (R183). -/
def nextWrite (s : State) : State :=
  match s.stc.queue with
  | [] => s
  | b :: rest => beginWrite b { s with stc := { s.stc with queue := rest } }

/-- The load of the four blocks: a good block is copied into working memory, a bad one gives its defaults and sets
STORE-FAULT (R182). -/
def loadStore (s : State) : State :=
  let c := s.stc
  let a := if c.good .loadsA then c.loadsA.content else List.replicate 12 none
  let b := if c.good .loadsB then c.loadsB.content else List.replicate 16 none
  { s with
    params := if c.good .config then c.config.content else Params.default
    jge := { s.jge with rules := if c.good .rules then c.rules.content else defaultRules }
    ldt := { s.ldt with entries := (a ++ b).map fun o => o.map loadEntry } }
  |> setStoreFault .config (!c.good .config)
  |> setStoreFault .rules (!c.good .rules)
  |> setStoreFault .loadsA (!c.good .loadsA)
  |> setStoreFault .loadsB (!c.good .loadsB)

/-- The store after a reset: the write in progress is cut short and leaves its block bad, the queue is empty, and
STORE-FAULT is clear until the load (R183, R197). The CRC of a block being written already does not match. -/
def storeAfterReset (c : Stc) : Stc := { c with queue := [], writing := none, fault := StoreFaults.none }

/-- The parameters a reset would load (R174). -/
def storedParams (c : Stc) : Params := if c.good .config then c.config.content else Params.default

end Sys2Proof.Machine
end

