-- ==== Sys2Proof/Machine/Chain.lean ====
section
/-!
DEFINITION. The Chain Line Controller (02): census starts, steps, aborts and completion, exchanges, visits, slot
states and poll cycles.
-/
namespace Sys2Proof.Machine

def setClc (k : Clc) (s : State) : State := { s with clc := k }

/-! ### The line (R18, R19) -/

/-- The line has been active until the moment given (R18). -/
def activeUntil (t : Nat) (s : State) : State := setClc { s.clc with idleFrom := max s.clc.idleFrom t } s

/-- The moment from which the line is idle when what the part does on it is cut short: its own frame runs to its end, a
line break ends at once (log 30), and an answer shows its end by a command of its own (R18; log 27). -/
def cutIdleFrom (now : Nat) (k : Clc) : Nat :=
  match k.line with
  | .sending _ ends => max k.idleFrom (max now ends)
  | .window _ _ => max k.idleFrom now
  | .idle => if k.lineBreak.isSome then min k.idleFrom now else k.idleFrom

/-- The exchange in progress abandoned, or the line as it was (R25, R29, R30). The rules abandon the exchange and say
nothing of a line break in progress: the model ends it at once (DESIGN CHOICE, log 30). -/
def abandonLine (now : Nat) (k : Clc) : Clc :=
  { k with line := .idle, lineBreak := none, idleFrom := cutIdleFrom now k }

/-- An exchange has ended; the line has been idle since the moment given (R18). -/
def endExchange (idleSince : Nat) (s : State) : State :=
  setClc { s.clc with line := .idle, idleFrom := max s.clc.idleFrom idleSince } s

/-- The moment the part may begin a frame: the line idle for 3 ms (R18). -/
def lineReady (k : Clc) : Nat := k.idleFrom + chainIdle

/-- What the part drives on the line: the bits of the frame it is sending (R18, R201). -/
def drivenBits (k : Clc) : List Bool :=
  match k.line with
  | .sending x _ => (sentFrame x k.censusNumber (k.visit.elim 0 (·.slot))).bits
  | .window _ _ | .idle => []

/-- A frame of the part begins at this moment (R18). -/
def beginFrame (x : Exchange) (s : State) : State :=
  let slot := s.clc.visit.elim 0 (·.slot)
  setClc { s.clc with
    line := .sending x (s.now + chainFrameTime (sentFrame x s.clc.censusNumber slot)), lineBreak := none } s

/-! ### Poll cycles (R35, R41) -/

def newCycle (now : Nat) : PollCycle := { pos := 0, start := now, ended := none, closing := false }

def stepCounter (n : Nat) : Nat := (n + 1) % 8

/-- A cycle cut short ends there and steps the counter (R35). -/
def cutCycle (k : Clc) : Clc :=
  match k.cycle with
  | some _ => { k with cycle := none, visit := none, cycleCounter := stepCounter k.cycleCounter }
  | none => { k with visit := none }

/-- PRESENT and STALE slots are visited in every cycle, LOST ones in a cycle of counter 0 (R35). -/
def visitable (counter : Nat) (x : Slot) : Bool := x.state != .lost || counter = 0

/-- The next slot of the cycle, as its place in the table from 0 (R35). -/
def nextPlace (k : Clc) (pos : Nat) : Option Nat :=
  ((k.table.zipIdx.drop pos).find? fun x => visitable k.cycleCounter x.1).map (·.2)

/-! ### Census start and abort (R21 to R25, R29, R30) -/

def nextCensusNumber (n : Nat) : Nat := if 255 ≤ n then 1 else n + 1

def emptyRun : CensusRun := { table := [], answered := 0, silent := 0, duplicates := 0, beyond := 0 }

/-- A census start (R25), with the line break when the number is 1 (R19), which begins at once, also while a frame of
the part is on the line (DESIGN CHOICE, log 30). -/
def startCensus (s : State) : State :=
  let n := nextCensusNumber s.clc.censusNumber
  let k := abandonLine s.now (cutCycle s.clc)
  censusEndsCapture
    (setClc { k with
      census := some emptyRun, censusNumber := n, holdoff := none, pendingTrigger := false, task := some .roll
      idleFrom := if n = 1 then s.now + lineBreakTime else k.idleFrom
      lineBreak := if n = 1 then some (s.now + lineBreakTime) else none } s)

/-- A census trigger of R22 in ACTIVE with the census state IDLE. -/
def triggerCensus (s : State) : State :=
  if s.pwc.power = .active ∧ s.clc.census.isNone then startCensus s else s

/-- A COUPLED edge sets the coupling flag, and starts a census or restarts the running one (R22, R29). -/
def coupledEdge (s : State) : State :=
  let s1 := setClc { s.clc with coupling := true } s
  if s1.pwc.power = .active then startCensus s1 else s1

/-- A running census aborted: the chain table, the number and the coupling flag stay, and polling resumes with a new
cycle (R30). -/
def abortCensus (s : State) : State :=
  match s.clc.census with
  | none => s
  | some _ =>
    setClc { abandonLine s.now s.clc with census := none, task := none, cycle := some (newCycle s.now) } s

/-! ### Roll and assign steps (R26 to R28) -/

/-- The slot chosen for an answering node (R27). -/
def placeNode (run : CensusRun) (node : Placed) : Assign :=
  if run.table.any (·.identity = node.identity) then
    { node := node, choice := .duplicate, slot := 7, repeated := false }
  else if 6 ≤ run.table.length then { node := node, choice := .beyondSix, slot := 7, repeated := false }
  else { node := node, choice := .slot, slot := run.table.length + 1, repeated := false }

/-- The choice takes effect (R28). -/
def applyChoice (a : Assign) (run : CensusRun) : CensusRun :=
  match a.choice with
  | .slot => { run with table := run.table ++ [a.node] }
  | .duplicate => { run with duplicates := run.duplicates + 1 }
  | .beyondSix => { run with beyond := run.beyond + 1 }

/-! ### Census completion (R31 to R33) -/

def enumeratedSlot (n : Placed) : Slot :=
  { identity := n.identity, lamps := n.lamps, state := .present, misses := 0, latest := none }

/-- A unit kept from the old table (R31). -/
def retainedSlot (x : Slot) : Slot := { x with state := .lost, misses := max x.misses 8, latest := none }

/-- The old units missing from the new slots, in old slot order (R31). -/
def missingSlots (run : CensusRun) (old : List Slot) : List Slot :=
  old.filter fun x => !run.table.any (·.identity = x.identity)

def retainedFrom (run : CensusRun) (coupling : Bool) (old : List Slot) : List Slot :=
  if coupling then [] else (missingSlots run old).take (6 - run.table.length)

def newTable (run : CensusRun) (coupling : Bool) (old : List Slot) : List Slot :=
  run.table.map enumeratedSlot ++ (retainedFrom run coupling old).map retainedSlot

def identitiesOf (table : List Slot) : List Identity := table.map (·.identity)

/-- The census result (R32). -/
def censusResult (run : CensusRun) (coupling : Bool) (old : List Slot) : CensusResult :=
  let table := newTable run coupling old
  { table := table
    moves := old.map fun x => (table.findIdx? (·.identity = x.identity)).map (· + 1)
    oldSignature := signatureOf (identitiesOf old)
    newSignature := signatureOf (identitiesOf table)
    coupling := coupling
    enumerated := run.table.length
    newlyLost := ((retainedFrom run coupling old).zipIdx).filterMap fun (x, i) =>
      if x.state = .lost then none else some (run.table.length + i + 1, x.identity) }

def censusCounts (run : CensusRun) (coupling : Bool) (old : List Slot) : CensusCounts :=
  { enumerated := run.table.length, retained := (retainedFrom run coupling old).length,
    duplicates := run.duplicates, beyond := run.beyond }

/-- The new table in force, and the rest of R33. -/
def closeCensus (run : CensusRun) (s : State) : State :=
  let k := s.clc
  setClc { k with
    table := newTable run k.coupling k.table, census := none, coupling := false
    holdoff := some (s.now + holdoffTime), cycleCounter := 0, counts := censusCounts run k.coupling k.table
    task := none, line := .idle, cycle := some (newCycle s.now) } s

/-- A census completion: one event, in the order of R203. -/
def completeCensus (run : CensusRun) (s : State) : State :=
  let old := s.clc.table
  let res := censusResult run s.clc.coupling old
  let s1 := send (.censusDone s.clc.censusNumber (censusCounts run s.clc.coupling old)) (closeCensus run s)
  let t := lookup (identitiesOf s1.clc.table) s1.ldt
  let s2 := setLoadsFull (loadsFullDue t) { s1 with ldt := { t with loadsFull := s1.ldt.loadsFull } }
  let step := applyCensus res s2.flt
  let s3 := res.newlyLost.foldl (fun acc x => reportWake (compositionReport x.1 x.2) acc) (commitFaults step.1 s2)
  handOverWith (fun list => list.filterMap (censusResolved (identitiesOf old) res)) step.2 s3

/-- A ROLL exchange ended with a valid answer: the node is placed and its ASSIGN is due (R26, R27). -/
def rollAnswered (node : Placed) (run : CensusRun) (s : State) : State :=
  setClc { s.clc with
    census := some { run with answered := run.answered + 1, silent := 0 }
    task := some (.assign (placeNode run node)) } s

/-- A ROLL exchange ended otherwise: the second in a row completes the census (R26). -/
def rollUnanswered (run : CensusRun) (s : State) : State :=
  if 2 ≤ run.silent + 1 then completeCensus run s
  else setClc { s.clc with census := some { run with silent := run.silent + 1 }, task := some .roll } s

/-- An ASSIGN exchange that succeeded (R28). -/
def assignDone (a : Assign) (run : CensusRun) (s : State) : State :=
  let run' := applyChoice a run
  if 12 ≤ run.answered then completeCensus run' s
  else setClc { s.clc with census := some run', task := some .roll } s

/-- An ASSIGN exchange that did not succeed: sent once more, and then the census completes as it stands (R28). -/
def assignFailed (a : Assign) (run : CensusRun) (s : State) : State :=
  if a.repeated then completeCensus run s
  else setClc { s.clc with task := some (.assign { a with repeated := true }) } s

/-! ### Visits (R34, R36 to R38) -/

def setSlot (n : Nat) (x : Slot) (s : State) : State :=
  setClc { s.clc with table := s.clc.table.set (n - 1) x } s

/-- A cycle ends with the visit that ends: the ACTIVE cycle that standby entry closed, and a standby cycle at its last
visit, about 100 ms before its scan (R41; log 42). -/
def endsWithVisit (s : State) (y : PollCycle) : Bool :=
  y.closing || (s.pwc.power = .standby && (nextPlace s.clc y.pos).isNone)

/-- A visit ends at this moment, which its cycle keeps (R35, R36), and the 3 ms of idle before whatever frame follows
count from it (R35; for the first ROLL of a census that a silent visit's end starts DEDUCED, log 27). A cycle
that ends with its visit steps the counter, and in ACTIVE the next follows (R35, R41). -/
def closeVisit (s : State) : State :=
  let k := { s.clc with visit := none, line := Line.idle, idleFrom := max s.now (cutIdleFrom s.now s.clc) }
  match k.cycle with
  | some y =>
    if endsWithVisit s y then
      setClc { k with
        cycle := if s.pwc.power = .active then some (newCycle s.now) else none
        cycleCounter := stepCounter k.cycleCounter } s
    else setClc { k with cycle := some { y with ended := some s.now } } s
  | none => setClc k s

/-- A slot became STALE (R22, R23, R41). -/
def slotBecameStale (s : State) : State :=
  if s.pwc.power = .active then
    if s.clc.holdoff.isSome then setClc { s.clc with pendingTrigger := true } s else triggerCensus s
  else s

/-- A slot became LOST through misses: a NODE-LOST record is asked for and a COMPOSITION cause reported; in STANDBY
the order of the COMPOSITION and FAULT reports is the free choice of log 8 (R34, R193). -/
def slotBecameLost (n : Nat) (identity : Identity) (s : State) : State :=
  if s.pwc.power = .standby then
    let s1 := { s with freeCount := s.freeCount + 1 }
    if Config.compositionFirst s.freeCount then
      onFaults (createNodeLost n identity) (reportWake (compositionReport n identity) s1)
    else reportWake (compositionReport n identity) (onFaults (createNodeLost n identity) s1)
  else onFaults (createNodeLost n identity) s

/-- A slot after a miss (R34). -/
def missedSlot (x : Slot) : Slot :=
  let m := min (x.misses + 1) 255
  { x with
    misses := m
    state :=
      match x.state with
      | .present => if 3 ≤ m then .stale else .present
      | .stale => if 8 ≤ m then .lost else .stale
      | .lost => .lost }

/-- A visit that ended in a miss (R34, R38). -/
def visitMissed (n : Nat) (s : State) : State :=
  match slotOf s n with
  | none => s
  | some x =>
    let y := missedSlot x
    let s1 := setSlot n y s
    if x.state = .present ∧ y.state = .stale then slotBecameStale s1
    else if x.state = .stale ∧ y.state = .lost then slotBecameLost n x.identity s1
    else s1

/-- A visit that ended GOOD: the report is the latest, misses 0, PRESENT; a LOST node answering heals its NODE-LOST
record and is a COMPOSITION cause (R34, R38, R39). -/
def visitGood (n : Nat) (x : Slot) (r : Report) (s : State) : State :=
  let s1 := setSlot n { x with state := .present, misses := 0, latest := some { report := r, arrival := s.now } } s
  if x.state = .lost then reportWake (compositionReport n x.identity) (onFaults (removeNodeLost n) s1) else s1

/-- A visit that ended with another unit's report (R38). -/
def visitWrong (n : Nat) (r : Report) (s : State) : State :=
  triggerCensus (reportWake (compositionReport n r.identity) s)

/-- A visit ended by a valid REPORT, classified by its identity (R37). -/
def visitReported (n : Nat) (r : Report) (s : State) : State :=
  match slotOf s n with
  | none => s
  | some x => if r.identity = x.identity then visitGood n x r s else visitWrong n r s

/-- A valid BUSY: a re-poll follows, unless two have been sent (R36). -/
def visitBusy (v : Visit) (s : State) : State :=
  if v.repolls < 2 then setClc { s.clc with visit := some { v with repollDue := some (s.now + repollDelay) } } s
  else visitMissed v.slot (closeVisit s)

/-! ### Reading the chain (R42) -/

def slotReport (s : State) (x : Slot) (n : Nat) : SlotReport :=
  { slot := n, identity := x.identity, lamps := x.lamps, state := x.state, misses := x.misses
    report := x.latest.map fun l => (l.report, ageMs s l.arrival) }

def chainReport (s : State) : ChainReport :=
  { number := s.clc.censusNumber, running := s.clc.census.isSome, holdoff := s.clc.holdoff.isSome,
    pendingTrigger := s.clc.pendingTrigger, counts := s.clc.counts
    slots := s.clc.table.zipIdx.map fun (x, i) => slotReport s x (i + 1) }

end Sys2Proof.Machine
end

