-- ==== Sys2Proof/Machine/ChainEvents.lean ====
section
/-!
DEFINITION. Commands of the chain line: the frames the part sends, the ends of its exchanges, visits, poll cycles and
the hold-off timer (02).
-/
namespace Sys2Proof.Machine

/-- A census frame begins (R18): the line is idle, and the clock has reached the moment the part may begin. -/
def sendTask (x : Exchange) (s : State) : State :=
  beginFrame x (setClc { s.clc with task := none } (reach (lineReady s.clc) s))

/-- ROLL_SEND (R18, R19, R26). -/
def execRollSend (s : State) : Result :=
  .next (event (fun s =>
    match s.clc.census, s.clc.task, s.clc.line with
    | some _, some .roll, .idle => sendTask .roll s
    | _, _, _ => s) s)

/-- ASSIGN_SEND (R28). -/
def execAssignSend (s : State) : Result :=
  .next (event (fun s =>
    match s.clc.census, s.clc.task, s.clc.line with
    | some _, some (.assign a), .idle => sendTask (.assign a) s
    | _, _, _ => s) s)

/-- A visit to the slot at place i begins with its POLL (R36). -/
def beginVisit (i : Nat) (y : PollCycle) (s : State) : State :=
  let s1 := reach (max (lineReady s.clc) y.start) s
  beginFrame .poll
    (setClc { s1.clc with
      visit := some { slot := i + 1, limit := s1.now + visitLimit, repolls := 0, repollDue := none }
      cycle := some { y with pos := i + 1 } } s1)

/-- VISIT_START (R35, R36): the next slot of the cycle, with the census state IDLE and no visit in progress. -/
def execVisitStart (s : State) : Result :=
  .next (event (fun s =>
    match s.clc.census, s.clc.visit, s.clc.line, s.clc.cycle with
    | none, none, .idle, some y =>
      match nextPlace s.clc y.pos with
      | some i => if s.pwc.power = .start then s else beginVisit i y s
      | none => s
    | _, _, _, _ => s) s)

/-- REPOLL (R36): the same POLL again, 3 ms after the BUSY frame, on a line idle for 3 ms (R18). -/
def execRepoll (s : State) : Result :=
  .next (event (fun s =>
    match s.clc.visit, s.clc.line with
    | some v, .idle =>
      match v.repollDue with
      | some d =>
        let s1 := reach (max d (lineReady s.clc)) s
        beginFrame .poll
          (setClc { s1.clc with visit := some { v with repolls := v.repolls + 1, repollDue := none } } s1)
      | none => s
    | _, _ => s) s)

/-- CHAIN_FRAME_SENT (R18): the part's frame ends and the answer window opens. -/
def execChainFrameSent (s : State) : Result :=
  .next (event (fun s =>
    match s.clc.line with
    | .sending x ends =>
      let s1 := reach ends s
      setClc { s1.clc with line := .window x (s1.now + answerWindow) } s1
    | _ => s) s)

/-- An exchange that ended with no valid answer: the line has been idle since `idleSince` (R26, R28, R36). -/
def failExchange (x : Exchange) (idleSince : Nat) (s : State) : State :=
  match x, s.clc.census, s.clc.visit with
  | .roll, some run, _ => rollUnanswered run (endExchange idleSince s)
  | .assign a, some run, _ => assignFailed a run (endExchange idleSince s)
  | .poll, _, some v => visitMissed v.slot (closeVisit s)
  | _, _, _ => endExchange idleSince s

/-- An exchange that ended with a valid answer (R26, R28, R36). -/
def answerExchange (x : Exchange) (answer : Answer) (s : State) : State :=
  match x, answer, s.clc.census, s.clc.visit with
  | .roll, .rollAnswer node, some run, _ => rollAnswered node run (endExchange s.now s)
  | .assign a, .echo payload, some run, _ =>
    if payload = assignPayload a s.clc.censusNumber then assignDone a run (endExchange s.now s)
    else assignFailed a run (endExchange s.now s)
  | .poll, .report r, _, some v => visitReported v.slot r (closeVisit s)
  | .poll, .busy, _, some v => visitBusy v (endExchange s.now s)
  | x, _, _, _ => failExchange x s.now s

/-- CHAIN_ANSWER_COMPLETE (R18): an answer begun in the window completes, valid or not. One whose exchange has been cut
short in the meantime is discarded, and the line has been active until now. -/
def execChainAnswerComplete (frame : ChainFrame) (s : State) : Result :=
  .next (event (fun s =>
    match s.clc.line with
    | .window x _ =>
      match classify x (s.clc.visit.elim 0 (·.slot)) frame with
      | some a => answerExchange x a s
      | none => failExchange x s.now s
    | .sending _ _ | .idle => activeUntil s.now s) s)

/-- CHAIN_ANSWER_ABANDON (R18): the line fell idle for 3 ms before the answer's last byte. -/
def execChainAnswerAbandon (s : State) : Result :=
  .next (event (fun s =>
    match s.clc.line with
    | .window x _ => failExchange x (s.now - chainIdle) s
    | .sending _ _ | .idle => activeUntil (s.now - chainIdle) s) s)

/-- ANSWER_WINDOW_CLOSE (R18): no answer has begun. -/
def execAnswerWindowClose (s : State) : Result :=
  .next (event (fun s =>
    match s.clc.line with
    | .window x closes => failExchange x (closes - answerWindow) (reach closes s)
    | _ => s) s)

/-- STRAY_CHAIN_FRAME (R18): a frame outside any answer window is received, checked and discarded, and it changes no
state: only the line has been active until now, which the 3 ms of idle before a frame of the part count from. -/
def execStrayChainFrame (_frame : ChainFrame) (s : State) : Result :=
  .next (if s.pwc.held then s else activeUntil s.now s)

/-- VISIT_TIME_LIMIT (R36): the visit ends in a miss, and a frame being received is discarded. -/
def execVisitTimeLimit (s : State) : Result :=
  .next (event (fun s =>
    match s.clc.visit with
    | some v => visitMissed v.slot (closeVisit (reach v.limit s))
    | none => s) s)

/-- The end of a cycle: 21 ms after the end of its last visit (R35), in STANDBY with that visit (R41; `closeVisit`), and
after 21 ms when it had none (R35; in STANDBY DEDUCED, log 42). -/
def cycleEnd (p : PowerState) (y : PollCycle) : Nat :=
  match y.ended with
  | some t => if p = .standby then t else t + cycleGap
  | none => y.start + cycleGap

/-- POLL_CYCLE_END (R35, R41): the counter steps, and in ACTIVE the next cycle follows. A standby cycle
with a visit has ended with its last one (`closeVisit`), and one without lasts 21 ms (DEDUCED, log 42). -/
def execPollCycleEnd (s : State) : Result :=
  .next (event (fun s =>
    match s.clc.census, s.clc.visit, s.clc.cycle with
    | none, none, some y =>
      match nextPlace s.clc y.pos with
      | some _ => s
      | none =>
        let s1 := reach (cycleEnd s.pwc.power y) s
        setClc { s1.clc with
          cycle := if s1.pwc.power = .active then some (newCycle s1.now) else none
          cycleCounter := stepCounter s1.clc.cycleCounter } s1
    | _, _, _ => s) s)

/-- STANDBY_POLL_CYCLE (R41): a cycle begins, one every 10 s. A cycle still in progress goes on (log 28). -/
def execStandbyPollCycle (s : State) : Result :=
  .next (event (fun s =>
    if s.pwc.power = .standby then
      let s1 := reach s.clc.standbyCycle s
      setClc { s1.clc with
        standbyCycle := s1.now + standbyCyclePeriod
        cycle := some (s1.clc.cycle.getD (newCycle s1.now)) } s1
    else s) s)

/-- HOLDOFF_EXPIRY (R23): a pending trigger starts a census in ACTIVE with the census state IDLE, and is cleared. -/
def execHoldoffExpiry (s : State) : Result :=
  .next (event (fun s =>
    match s.clc.holdoff with
    | some d =>
      let s1 := reach d s
      let s2 := setClc { s1.clc with holdoff := none, pendingTrigger := false } s1
      if s.clc.pendingTrigger then triggerCensus s2 else s2
    | none => s) s)

end Sys2Proof.Machine
end

