-- ==== Sys2Proof/Machine/Layout.lean ====
section
/-!
DEFINITION. The frames the part sends: the content of the three replies in parts and its cut (R200), the kind and the
body of every record (R198; widths where no rule gives them: log 6), and the frame they make (R165).
-/
namespace Sys2Proof.Machine

/-! ### REFUSED (11, section 11.4) -/

def refusedBody (kind : Byte) (r : Reason) : List Byte := kind :: oneByte r.code

/-! ### DISPLAY-SNAPSHOT (11, section 11.5) -/

def telltaleByte (t : Telltales) : Nat := t.left.code + 4 * t.right.code + 16 * t.general.code

def entryBody (e : DisplayEntry) : List Byte :=
  oneByte e.id ++ oneByte (e.version + 16 * e.state.code) ++ oneByte e.kind.code ++ oneByte (circuitCode e.circuit) ++
    oneByte (subjectCode e.subject) ++ oneByte e.severity ++ identityBytes e.identity

def snapshotBody (entries : List DisplayEntry) (overflow : Nat) (t : Telltales) : List Byte :=
  oneByte entries.length ++ oneByte overflow ++ oneByte (telltaleByte t) ++ (entries.map entryBody).flatten

/-! ### The STATUS content (R176, R200) -/

/-- The wake record: cause, circuit, slot, unit identity (11, section 11.6). -/
def wakeBytes (w : Option WakeRecord) : List Byte :=
  oneByte (w.elim 0 (·.cause.code)) ++ oneByte (circuitCode (w.bind (·.circuit))) ++
    oneByte ((w.bind (·.slot)).getD 0) ++ identityBytes (w.bind (·.identity))

def powerContent (s : State) : List Byte :=
  oneByte s.pwc.power.code ++ oneByte s.pwc.cause.code ++ oneByte (wakeBits s.pwc.wakeFlags) ++
    oneByte (wakeBits s.params.wakeMask) ++ wakeBytes s.pwc.wakeRecord

def flagContent (s : State) : List Byte :=
  [circuitBits (s.sfe.circuits.mapAt fun _ x => x.senseSat), circuitBits (s.sfe.circuits.mapAt fun _ x => x.leak)] ++
    oneByte (s.sfe.voltage.toNat + 2 * s.ldt.loadsFull.toNat + 4 * s.flt.saturated.toNat + 8 * s.hlc.stale.toNat) ++
    oneByte s.stc.fault.code ++ toBigEndian 2 s.sfe.supplyReading

def senseContent (s : State) (c : Circuit) : List Byte :=
  let x := s.sfe.circuits.get c
  toBigEndian 2 x.zero ++ oneByte x.phase.code

/-- The 22 summary bytes of a circuit; all 0 when it has had no offer since reset (11, section 11.6). -/
def summaryContent (s : State) (o : Option Summary) : List Byte :=
  match o with
  | none => List.replicate 22 0
  | some x =>
    timeBytes 2 (toMs (s.now - x.time)) ++ toBigEndian 2 x.mean ++ toBigEndian 2 x.zero ++ toBigEndian 2 x.volts ++
      oneByte (1 + 2 * x.saturated.toNat + 4 * x.parked.toNat + 8 * x.residual.isSome.toNat +
        16 * x.expectation.isSome.toNat) ++
      toBigEndian 2 x.measured ++ oneByte x.action.code ++ oneByte x.factor ++ oneByte x.held.code ++
      signedBytes (x.residual.getD 0) ++ toBigEndian 2 (x.expectation.getD 0) ++ oneByte x.pool.code ++
      oneByte (subjectCode x.poolSubject)

def watchContent (w : Watch) : List Byte := oneByte w.armed.isSome.toNat ++ toBigEndian 2 w.load

def judgementContent (s : State) (c : Circuit) : List Byte :=
  summaryContent s (s.jge.summaries.get c) ++ watchContent (s.jge.watches.get c)

def slotCount (s : State) (st : SlotState) : Nat := (s.clc.table.filter (·.state = st)).length

def tableContent (s : State) : List Byte :=
  oneByte s.clc.census.isSome.toNat ++ oneByte s.clc.censusNumber ++ oneByte s.clc.table.length ++
    oneByte (slotCount s .stale) ++ oneByte (slotCount s .lost) ++ oneByte (recordCount s.flt) ++
    toBigEndian 4 s.flt.activation.toNat ++ oneByte (s.flt.fastLeft.toNat + 2 * s.flt.fastRight.toNat) ++
    oneByte s.dsr.list.length ++ oneByte s.dsr.overflow ++ oneByte (telltaleByte (telltales s.dsr.list)) ++
    oneByte s.dsr.mirror.code ++ oneByte s.dsr.staleAcks ++ oneByte s.dsr.ttfb.toNat

def linkContent (s : State) : List Byte :=
  oneByte s.svc.mode.toNat ++ oneByte s.svc.state.code ++ oneByte s.svc.sticky.code ++ oneByte s.hlc.silent.toNat ++
    toBigEndian 2 s.hlc.word.toNat ++ timeBytes 2 (toMs (s.now - s.hlc.lastTell)) ++ oneByte s.hlc.oversize ++
    oneByte s.hlc.broken ++ oneByte s.hlc.badCrc ++ oneByte s.hlc.overrun

/-- The STATUS content, 272 bytes (R200). -/
def statusContent (s : State) : List Byte :=
  powerContent s ++ flagContent s ++ (allCircuits.map (senseContent s)).flatten ++
    (allCircuits.map (judgementContent s)).flatten ++ tableContent s ++ linkContent s

/-! ### Parts (R200) -/

/-- The number of parts of a content of n bytes: n divided by 118, rounded up. -/
def partCount (n : Nat) : Nat := (n + 117) / 118

/-- Content bytes of part k, counted from 1. -/
def partContent (content : List Byte) (k : Nat) : List Byte := (content.drop (118 * (k - 1))).take 118

/-- Part numbers, 1 upward. -/
def partNumbers (count : Nat) : List Nat := (List.range count).map (· + 1)

/-- The body of one part: part number, part count, content (R200). -/
def partBody (part count : Nat) (content : List Byte) : List Byte := oneByte part ++ oneByte count ++ content

def statusReply (s : State) : List TxRecord :=
  let content := statusContent s
  (partNumbers (partCount content.length)).map fun k =>
    .statusPart k (partCount content.length) (partContent content k)

/-! ### The READ-CHAIN content (R42, R200; log 6) -/

/-- n bytes that no listed field fills: their bits are unused, and the part sends them as 0 (R198). -/
def unusedBytes (n : Nat) : List Byte := List.replicate n 0

/-- A report's fields: unit identity, energized view, and each circuit's current, class and outage flags. -/
def reportBytes (r : Report) : List Byte :=
  identityBytes (some r.identity) ++ [r.energized] ++
    (allCircuits.map fun c =>
      toBigEndian 2 (r.current.get c) ++ oneByte (classBit (r.cls.get c)) ++ oneByte (r.outage.get c).toNat).flatten

/-- 70 bytes for a slot: the fields of R42 in its order, the lamp positions and misses in a byte each, a byte that says
whether a report is held, its 39 bytes and its age; 11 bytes no field fills, and 52 where no report is held. -/
def slotContent (x : SlotReport) : List Byte :=
  oneByte x.slot ++ identityBytes (some x.identity) ++ perCircuitBytes oneByte x.lamps ++ oneByte x.state.code ++
    oneByte x.misses ++
    match x.report with
    | none => oneByte 0 ++ unusedBytes 52
    | some (r, age) => oneByte 1 ++ reportBytes r ++ timeBytes 2 age ++ unusedBytes 11

/-- 12 bytes of census data, the four counts in two bytes each, and the slots. -/
def chainContent (r : ChainReport) : List Byte :=
  oneByte r.number ++ oneByte r.running.toNat ++ oneByte r.holdoff.toNat ++ oneByte r.pendingTrigger.toNat ++
    toBigEndian 2 r.counts.enumerated ++ toBigEndian 2 r.counts.retained ++ toBigEndian 2 r.counts.duplicates ++
    toBigEndian 2 r.counts.beyond ++ (r.slots.map slotContent).flatten

def chainReply (s : State) : List TxRecord :=
  let content := chainContent (chainReport s)
  (partNumbers (partCount content.length)).map fun k =>
    .chainPart k (partCount content.length) (partContent content k)

/-! ### The READ-CAPTURE content (R164, R200; log 6) -/

/-- 16 bytes for a capture record: the fields of R164 in its order, and 6 bytes no field fills, 11 while WAITING. -/
def recordContent (r : RecordReport) : List Byte :=
  oneByte r.circuit.val ++ oneByte (capturedCode r.captured) ++ oneByte r.count ++ toBigEndian 2 r.first ++
    match r.captured with
    | none => unusedBytes 11
    | some x => toBigEndian 2 x.nominal ++ oneByte (classBit x.cls) ++ toBigEndian 2 x.vref ++ unusedBytes 6

/-- A timer's remaining time in ms; four unused bytes where it does not run, which the service state before them tells
from 0 ms (R164, R198). -/
def timerContent (t : Option Nat) : List Byte :=
  match t with
  | none => unusedBytes 4
  | some n => timeBytes 4 n

/-- 20 bytes and the capture records, in ascending circuit number (PRESUMED, log 6); where none are held the target and identity are absent and two bytes are filled
by no field. -/
def captureContent (r : CaptureReport) : List Byte :=
  oneByte r.mode.toNat ++ oneByte r.state.code ++ oneByte r.sticky.code ++ timerContent r.window ++
    timerContent r.release ++
    match r.capture with
    | none => oneByte (subjectCode none) ++ identityBytes none ++ unusedBytes 2
    | some k =>
      oneByte (subjectCode (some k.target)) ++ identityBytes (some k.identity) ++ oneByte k.index ++ [k.circuits] ++
        (k.records.map recordContent).flatten

def captureReply (s : State) : List TxRecord :=
  let content := captureContent (captureReport s)
  (partNumbers (partCount content.length)).map fun k =>
    .capturePart k (partCount content.length) (partContent content k)

/-! ### Kinds of the records sent (11, section 11.2) -/

/-- A reply's kind is the request's with its top bit set (R165). -/
def replyKind (kind : Byte) : Byte := kind ||| 0x80#8

def TxRecord.kind (r : TxRecord) : Byte :=
  match r with
  | .refused _ _ => 0x7F
  | .ok kind => replyKind kind
  | .identify _ _ _ _ _ => replyKind 0x01
  | .statusPart _ _ _ => replyKind 0x02
  | .chainPart _ _ _ => replyKind 0x04
  | .loads _ _ => replyKind 0x05
  | .faults _ _ _ _ _ _ => replyKind 0x06
  | .display _ => replyKind 0x07
  | .setParam _ _ _ _ => replyKind 0x08
  | .readParam _ _ _ _ => replyKind 0x09
  | .writeRule _ _ _ => replyKind 0x0A
  | .readRule _ _ _ _ => replyKind 0x0B
  | .relearn _ _ => replyKind 0x0C
  | .clearWake _ _ => replyKind 0x10
  | .commissionBegin _ => replyKind 0x14
  | .confirm op _ => replyKind (match op with
    | .commission => 0x15
    | .release => 0x18)
  | .capturePart _ _ _ => replyKind 0x16
  | .releaseBegin _ _ => replyKind 0x17
  | .clearFaults _ => replyKind 0x19
  | .snapshot _ _ _ => 0x40
  | .statusChange _ _ => 0x41
  | .censusDone _ _ => 0x42
  | .serviceDone _ _ _ _ => 0x43
  | .ready _ _ _ _ _ => 0x44

/-! ### Bodies (11, sections 11.1 to 11.5; log 6) -/

/-- READ-LOADS: the count, then EMPTY or the entry (R60). -/
def loadsBody (count : Nat) (entry : Option EntryReport) : List Byte :=
  oneByte count ++
    match entry with
    | none => oneByte 0
    | some e =>
      oneByte e.key.code ++ keyBytes e.key ++ oneByte e.age ++ oneByte e.lock.code ++ oneByte e.inComposition.toNat ++
        perCircuitBytes (fun x => oneByte x.state.code ++ oneByte (classBit x.cls) ++ toBigEndian 2 x.nominal ++
          toBigEndian 2 x.vref ++ oneByte x.count) e.cells

/-- A field that may be absent and has no code for absent: the byte 0, or the byte 1 and the field (R121; log 6). -/
def presentBytes (o : Option (List Byte)) : List Byte :=
  match o with
  | none => oneByte 0
  | some bs => oneByte 1 ++ bs

/-- The fields of R105; the key as its subject and circuit, its family following from the kind. An absent activation
sequence or entry id is told by its byte (R121; log 6). -/
def recordBytes (r : FaultRecord) : List Byte :=
  oneByte (subjectCode (keySubject r.key)) ++ oneByte (circuitCode (keyCircuit r.key)) ++ identityBytes r.identity ++
    oneByte r.kind.code ++ oneByte r.state.code ++ oneByte r.suspect ++ oneByte r.heal ++
    presentBytes (r.sequence.map fun n => toBigEndian 4 n.toNat) ++ oneByte r.acked.toNat ++
    presentBytes (r.entryId.map oneByte) ++
    toBigEndian 2 r.lastExpected ++ signedBytes r.lastDeficit

/-- The two fast-flash requests: left bit 0, right bit 1 (11, section 11.6). -/
def flashByte (left right : Bool) : Nat := left.toNat + 2 * right.toNat

/-- READ-FAULTS (R121); EMPTY is the byte 0, a record follows the byte 1. -/
def faultsBody (count : Nat) (activation : BitVec 32) (saturated left right : Bool) (record : Option FaultRecord) :
    List Byte :=
  oneByte count ++ toBigEndian 4 activation.toNat ++ oneByte saturated.toNat ++ oneByte (flashByte left right) ++
    presentBytes (record.map recordBytes)

/-- The content of the last CLUSTER-REPORT, laid out as the report is (11, section 11.3). -/
def mirrorBytes (m : MirrorContent) : List Byte :=
  oneByte m.triples.length ++ oneByte m.overflow ++
    (m.triples.map fun t => oneByte t.id ++ oneByte (t.version + 128 * t.acked.toNat)).flatten

/-- DISPLAY (R138); a byte says whether the reconcile timer runs, and its time follows where it does. -/
def displayBody (d : DisplayReport) : List Byte :=
  oneByte d.mirror.code ++ mirrorBytes d.content ++
    presentBytes (d.remaining.map (timeBytes 2)) ++ oneByte d.staleAcks ++ oneByte d.idCounter ++ oneByte d.length ++
    oneByte d.overflow

/-- READ-RULE (R74): the rule, its role with the head of a MEMBER, and for a head its set's state, the rules that break
it where it is BROKEN, and the circuits it matches for. R74 lists no more than these fields, and 11.2 lays out
WRITE-RULE alone: the model opens the reply with the rule number and gives the fields in WRITE-RULE's 16 bytes, tells
the rules that break the set as a set of 4 bytes in the encoding of a member set, whose bits ascend as the list does,
and the circuits it matches for as one circuit set (PRESUMED, log 6). -/
def readRuleBody (number : Nat) (rule : Rule) (role : Role) (set : Option SetReport) : List Byte :=
  ruleBody number rule ++ oneByte role.code ++
    (match role with
      | .member h => oneByte h
      | .head | .orphan => []) ++
    match set with
    | none => []
    | some x =>
      oneByte (setStateCode x.breakers) ++
        (if x.breakers.isEmpty then []
          else toBigEndian 4 ((x.breakers.map fun n => 2 ^ n).sum)) ++ [x.matching]

/-- The status flags and fast-flash requests as bits: the STATUS content's flag bytes (11, section 11.6) without the
reading, then the requests. -/
def flagBytes (senseSat leak : PerCircuit Bool) (voltage loadsFull saturated stale : Bool) (fault : StoreFaults)
    (left right : Bool) : List Byte :=
  [circuitBits senseSat, circuitBits leak] ++
    oneByte (voltage.toNat + 2 * loadsFull.toNat + 4 * saturated.toNat + 8 * stale.toNat) ++ oneByte fault.code ++
    oneByte (flashByte left right)

/-- The change set, in the same bits, and the mirror and the link state in a byte of their own (R177). -/
def changeBytes (ms : List Matter) : List Byte :=
  flagBytes (PerCircuit.ofFn fun c => decide (Matter.senseSat c ∈ ms))
      (PerCircuit.ofFn fun c => decide (Matter.leak c ∈ ms)) (Matter.voltage ∈ ms) (Matter.loadsFull ∈ ms)
      (Matter.saturated ∈ ms) (Matter.fwStale ∈ ms)
      { config := Matter.storeFault .config ∈ ms, rules := Matter.storeFault .rules ∈ ms
        loadsA := Matter.storeFault .loadsA ∈ ms, loadsB := Matter.storeFault .loadsB ∈ ms }
      (Matter.fastLeft ∈ ms) (Matter.fastRight ∈ ms) ++
    oneByte ((decide (Matter.mirror ∈ ms)).toNat + 2 * (decide (Matter.link ∈ ms)).toNat)

/-- STATUS-CHANGE (R178). -/
def statusChangeBody (ms : List Matter) (v : StatusValues) : List Byte :=
  changeBytes ms ++
    flagBytes v.senseSat v.leak v.voltage v.loadsFull v.saturated v.fwStale v.storeFault v.fastLeft v.fastRight ++
    oneByte v.mirror.code ++ oneByte v.silent.toNat ++ oneByte v.ttfb.toNat ++ oneByte v.power.code

/-- SERVICE-DONE (R153, R160): the operation, its target or index, the result, and for a write that service mode left
whether it succeeded. -/
def serviceDoneBody (op : ServiceOp) (target : ServiceTarget) (result : ServiceResult) (writeGood : Option Bool) :
    List Byte :=
  oneByte op.code ++
    (match target with
      | .subject t => oneByte (subjectCode (some t))
      | .index n => oneByte n) ++
    oneByte result.code ++
    match writeGood with
    | none => []
    | some good => oneByte good.toNat

/-- The body of every record the part sends: the content its owning rule lists, in the order listed (11, its opening;
R198). No layout gives the OK of a reply a byte: the model tells it by the reply's kind, which is not REFUSED's, so that
a reply that is OK and nothing more has an empty body, and the index of COMMISSION-BEGIN, like every content behind an
OK, stands first in its body (PRESUMED, log 6). The results that chapter 11 codes are bytes. -/
def TxRecord.body (r : TxRecord) : List Byte :=
  match r with
  | .refused kind reason => refusedBody kind reason
  | .ok _ => []
  | .identify part revision format power mode => part ++ [revision, format] ++ oneByte power.code ++ oneByte mode.toNat
  | .statusPart part count content => partBody part count content
  | .chainPart part count content => partBody part count content
  | .capturePart part count content => partBody part count content
  | .loads count entry => loadsBody count entry
  | .faults count activation saturated left right record => faultsBody count activation saturated left right record
  | .display content => displayBody content
  | .setParam id circuit value clamped =>
    oneByte id ++ oneByte circuit ++ toBigEndian 2 value ++ oneByte clamped.toNat
  | .readParam id circuit value differs =>
    oneByte id ++ oneByte circuit ++ toBigEndian 2 value ++ oneByte differs.toNat
  | .writeRule number rule clamped => ruleBody number rule ++ oneByte clamped.toNat
  | .readRule number rule role set => readRuleBody number rule role set
  | .relearn index circuits => oneByte index ++ [circuits]
  | .clearWake flags record => oneByte (wakeBits flags) ++ wakeBytes record
  | .commissionBegin index => oneByte index
  | .confirm _ refusal => oneByte (confirmCode refusal)
  | .releaseBegin remainder identity => oneByte (if remainder then 2 else 1) ++ identityBytes (some identity)
  | .clearFaults count => oneByte count
  | .snapshot entries overflow t => snapshotBody entries overflow t
  | .statusChange changes values => statusChangeBody changes values
  | .censusDone number counts =>
    oneByte number ++ oneByte counts.enumerated ++ oneByte counts.retained ++ oneByte counts.duplicates ++
      oneByte counts.beyond
  | .serviceDone op target result writeGood => serviceDoneBody op target result writeGood
  | .ready cause fault units remainders format =>
    oneByte cause.code ++ oneByte fault.code ++ oneByte units ++ oneByte remainders ++ [format]

/-- The frame a record goes out as (R165, R198). -/
def TxRecord.frame (r : TxRecord) : HostFrame := { kind := r.kind, body := r.body }

/-- The bits the transmitter puts on the line while a record is being sent (R165, R169). -/
def TxRecord.bits (r : TxRecord) : List Bool := lineBits r.frame.bytes

end Sys2Proof.Machine
end

