-- ==== Sys2Proof/Machine/Standby.lean ====
section
/-!
DEFINITION. The changes of the power state, in which every block takes part: resets (R186), standby entry begun,
cancelled and completed (R188 to R190), the wake and the end of leaving standby (R195).
-/
namespace Sys2Proof.Machine

/-! ### Reset (R186) -/

/-- The machine in reset or right after it: every block as its chapter gives it for any reset. The store copies and
the SERVICE line are kept; the clock, the free-choice counter and the command queue are the model's own (log 4). -/
def doReset (cause : ResetCause) (held : Bool) (s : State) : State :=
  { now := s.now, freeCount := s.freeCount, params := Params.default, sfe := Sfe.initial s.now,
    clc := Clc.initial s.now, ldt := Ldt.initial, jge := Jge.initial, flt := Flt.initial, dsr := Dsr.initial,
    svc := Svc.initial s.svc.line
    hlc := { Hlc.initial s.now with wire := s.hlc.wire.filter fun b => s.now ≤ b.starts }, stc := storeAfterReset s.stc,
    pwc := Pwc.initial cause held, pending := s.pending }

/-! ### START to ACTIVE (R187) -/

/-- The READY notice: cause, STORE-FAULT, the entries loaded of each kind, and the store format number (R187). -/
def readyNotice (s : State) : TxRecord :=
  let held := s.ldt.entries.filterMap id
  .ready s.pwc.cause s.stc.fault (held.filter fun e => !isRemainder e.key).length
    (held.filter fun e => isRemainder e.key).length Config.storeFormat

/-- The silence timer runs from its full duration (R172). -/
def restartSilence (s : State) : State :=
  { s with hlc := { s.hlc with silence := some (s.now + silencePeriod) } }

def setPower (p : PowerState) (s : State) : State := { s with pwc := { s.pwc with power := p } }

/-- The load complete: the part becomes ACTIVE, and the four steps of R187 in their order. -/
def completeLoad (s : State) : State :=
  let s1 := setPower .active (loadStore s)
  let s2 := send (readyNotice s1) s1
  let s3 := if s2.hlc.changes.isEmpty then s2 else sendStatusChange s2
  triggerCensus (startAging (restartSilence s3))

/-! ### Standby entry (R188 to R190) -/

def setStandbyEntry (b : Bool) (s : State) : State := { s with pwc := { s.pwc with standbyEntry := b } }

def setLdt (t : Ldt) (s : State) : State := { s with ldt := t }

/-- Acceptance of STANDBY: a running census aborted, every learning run ended, and the two LOADS writes asked for
(R188). -/
def beginEntry (s : State) : State :=
  let s1 := setStandbyEntry true (abortCensus s)
  askWrite .loadsB (askWrite .loadsA (setLdt (endAllRuns s1.ldt) s1))

def isLoads (b : StoreBlock) : Bool := b = .loadsA || b = .loadsB

/-- The entry is cancelled: its waiting LOADS writes are withdrawn, the write in progress runs on (R190). -/
def cancelEntry (s : State) : State :=
  setStandbyEntry false { s with stc := { s.stc with queue := s.stc.queue.filter fun b => !isLoads b } }

/-- Both LOADS writes of the entry have ended (R189). -/
def entryDone (s : State) : Bool :=
  !(s.stc.queue.any isLoads) && !(s.stc.writing.any isLoads)

/-- The Sense Front End at standby entry: circuits parked, windows and the supply window discarded (R14), the first
standby scan a second away (R15). -/
def parkSense (s : State) : State :=
  { s with sfe := { s.sfe with
      circuits := s.sfe.circuits.mapAt (parkCircuit s.now s.hlc.word), supplyWindow := none, supplyDone := none,
      voltageMark := none, standbyScan := s.now + standbyScanPeriod } }

/-- The chain line at standby entry: a visit in progress is completed and the ACTIVE cycle ends with it; without one
the cycle ends at once. The first standby cycle follows at 9750 ms (R41). -/
def parkChain (s : State) : State :=
  let k := s.clc
  let k1 : Clc :=
    match k.visit with
    | some _ => { k with cycle := k.cycle.map fun y => { y with closing := true } }
    | none => cutCycle k
  setClc { k1 with standbyCycle := s.now + firstStandbyCycle } s

/-- The end of a standby entry: the part becomes STANDBY and every block acts on it (R189). -/
def enterStandby (s : State) : State :=
  let s1 := setStandbyEntry false (setPower .standby (abortCensus s))
  let s2 := parkDisplay (parkChain (disarmWatches (parkSense s1)))
  let s3 := { s2 with hlc := { s2.hlc with silence := none }, pwc := { s2.pwc with lowScans := 0 } }
  stopAging s3

/-! ### Leaving standby (R195) -/

/-- The word becomes stale at this moment: the circuits wait and the watches disarm (R12, R82, R171). -/
def becomeStale (s : State) : State :=
  disarmWatches
    (setStale true { s with sfe := { s.sfe with circuits := s.sfe.circuits.mapAt fun _ x => staleCircuit x } })

/-- The tell age tested at the moment of wake (R171). -/
def testTellAge (s : State) : State := if s.hlc.lastTell + freshPeriod ≤ s.now then becomeStale s else s

/-- The Sense Front End at the wake: the 2 ms scan resumes at once and every circuit settles from this moment (R16). -/
def unparkSense (s : State) : State :=
  { s with sfe := { s.sfe with
      circuits := s.sfe.circuits.mapAt (wakeCircuit s.params s.now s.hlc.word s.hlc.stale), supplyWindow := none,
      supplyDone := none, voltageMark := none, nextScan := s.now } }

/-- Polling as in ACTIVE resumes; a standby cycle in progress goes on as a cycle (R35, log 28). -/
def unparkChain (s : State) : State :=
  setClc { s.clc with cycle := some ((s.clc.cycle.map fun y => { y with closing := false }).getD (newCycle s.now)) } s

/-- Steps 1 to 3 of R195: ACTIVE, and every block resumes. The frame's own entry into the buffer follows. -/
def wake (s : State) : State :=
  let s1 := unparkSense (testTellAge (setPower .active s))
  let s2 := if s1.hlc.stale then s1 else evaluateWatches s1
  startAging (unparkChain (unparkDisplay (restartSilence s2)))

/-- Steps 5 and 6 of R195: the snapshot, the STATUS-CHANGE made even with an empty set, and the census. -/
def leaveStandby (s : State) : State := triggerCensus (sendStatusChange (refreshLines (sendSnapshot s)))

end Sys2Proof.Machine
end

