-- ==== Sys2Proof/Machine/Link.lean ====
section
/-!
DEFINITION. The Host Link Controller (09): a valid frame's completion, the tests a frame meets when it is taken for
processing, and the shared course of every request and tell.
-/
namespace Sys2Proof.Machine

/-! ### A valid frame completes (R166, R167, R172) -/

/-- A valid frame counts for the link state: SILENT becomes NORMAL and the silence timer restarts, in ACTIVE (R172). -/
def heard (s : State) : State :=
  let s1 := markIf s.hlc.silent .link { s with hlc := { s.hlc with silent := false } }
  if s1.pwc.power = .active then restartSilence s1 else s1

def countTo255 (n : Nat) : Nat := min (n + 1) 255

/-- What a valid frame does to the power state as it completes: it wakes the part from STANDBY (R195) or cancels a
standby entry (R190). -/
def frameArrives (s : State) : State :=
  if s.pwc.power = .standby then wake s else if s.pwc.standbyEntry then cancelEntry s else s

/-- The frame enters the empty buffer, with its marks, or is discarded and counted OVERRUN (R167). A frame that wakes
the part or cancels an entry leaves its mark on the buffer even when it finds no room: the waiting frame is the one
whose processing ends the wake (log 25). -/
def bufferFrame (f : HostFrame) (cancelled woke : Bool) (s : State) : State :=
  match s.hlc.buffer with
  | none => { s with hlc := { s.hlc with buffer := some { frame := f, cancelled := cancelled, woke := woke } } }
  | some w =>
    { s with hlc := { s.hlc with buffer := some { w with woke := w.woke || woke }, overrun := countTo255 s.hlc.overrun } }

/-- No frame is taken for processing while the part is in reset or a RESTART has been accepted (R186). -/
def takesFrames (s : State) : Bool := !s.pwc.held && !s.pwc.restartPending

/-- The waiting frame is taken for processing when no other is processed, and the buffer is empty from that moment
(R167). -/
def takeWaiting (s : State) : State :=
  if s.hlc.processing.isNone && takesFrames s then
    { s with hlc := { s.hlc with processing := s.hlc.buffer, buffer := none } }
  else s

/-- After every ending of a frame the receiver hunts (R166). -/
def huntAgain (s : State) : State := { s with hlc := { s.hlc with receiver := .hunting } }

/-- A valid frame completes (R166): it counts for the link state, wakes the part or cancels a standby entry, and
enters the buffer, from which it is taken at once when no other frame is processed, or is an OVERRUN (R167). -/
def frameCompletes (f : HostFrame) (s : State) : State :=
  takeWaiting (bufferFrame f s.pwc.standbyEntry (s.pwc.power = .standby) (heard (frameArrives (huntAgain s))))

/-! ### Taking a frame for processing (R168) -/

/-- The tests before the owner, in their order: the cancelled entry's BUSY (R190), UNKNOWN-KIND, LENGTH, NOT-READY
(R168). -/
def linkRefusal (w : Waiting) (power : PowerState) : Option Reason :=
  if w.cancelled then some .busy
  else if !isHostKind w.frame.kind then some .unknownKind
  else if !lengthGood w.frame then some .length
  else if power = .start && w.frame.kind != 0x01 && w.frame.kind != 0x02 then some .notReady
  else none

/-- A frame taken for processing: refused by the link, or taken by the Service Controller, which passes it to its
owner's work, refuses it, or lets it break an operation (R168, R154). -/
def answer (w : Waiting) (owner : State → State) (s : State) : State :=
  match linkRefusal w s.pwc.power with
  | some r => refuse w.frame.kind r s
  | none =>
    match serviceVerdict w.frame.kind s.svc.mode s.svc.state with
    | .pass => owner s
    | .refused r => refuse w.frame.kind r s
    | .breaks => breakOperation (refuse w.frame.kind .sequence s)

/-- A STANDBY request accepted with a frame waiting behind it: that frame cancels the entry, as every valid host frame
does until the entry completes, and is refused BUSY (R188, R190). It completed before the acceptance, for which no rule
says more; so no frame is ever processed in an entry or in STANDBY (R146, R151, R193; DEDUCED, log 40). -/
def waitingCancels (s : State) : State :=
  if s.pwc.standbyEntry && s.hlc.buffer.isSome then
    let s1 := cancelEntry s
    { s1 with hlc := { s1.hlc with buffer := s1.hlc.buffer.map fun w => { w with cancelled := true } } }
  else s

/-- No frame is in processing. -/
def endProcessing (s : State) : State := { s with hlc := { s.hlc with processing := none } }

/-- The processing of a frame ends with its answer. A frame that woke the part is in processing until then, so that the
changes of its work only gather (R178), and ends with leaving standby's notices and census (R195). Then the frame that
waits is taken (R167). -/
def process (w : Waiting) (owner : State → State) (s : State) : State :=
  let s1 := if w.woke then leaveStandby (endProcessing (answer w owner s)) else answer w owner (endProcessing s)
  finish (takeWaiting (waitingCancels s1))

/-- The frame is the one in processing. -/
def isProcessed (f : HostFrame) (s : State) : Bool := s.hlc.processing.any (·.frame = f)

/-- A host record: the frame `f` with the work of its owner. The frame in processing is answered; any other first
arrives, and is answered when it is taken at once; behind a frame in processing it waits or is an OVERRUN, and while no
frame is taken it only arrives (R167, R186; log 3). -/
def hostRecord (f : HostFrame) (owner : State → State) (s : State) : State :=
  if s.pwc.held then s
  else
    let s1 := if isProcessed f s then s else finish (frameCompletes f s)
    match s1.hlc.processing with
    | some w => if w.frame = f then process w owner s1 else s1
    | none => s1

/-! ### The receiver (R166) -/

def RxByte.ends (b : RxByte) : Nat := b.starts + hostByteTime

/-- The receiver takes a byte: hunting, it passes over every byte but SYNC; within a frame, a byte without its stop bit
breaks the frame, and any other joins it and may end it. -/
def Receiver.take (r : Receiver) (b : RxByte) : Receiver × Option Instr :=
  match r with
  | .hunting => if b.stop && b.value = syncByte then (.receiving [] b.ends, none) else (.hunting, none)
  | .receiving taken _ =>
    if b.stop then
      match receiveFrame (taken ++ [b.value]) with
      | none => (.receiving (taken ++ [b.value]) b.ends, none)
      | some (ending, _) => (.hunting, some ending)
    else (.hunting, some .hostFrameBroken)

/-- The frame being received is broken by a gap: more than 5 ms have passed since its last byte ended, and no byte began
within them. -/
def gapBreaks (s : State) : Bool :=
  match s.hlc.receiver with
  | .hunting => false
  | .receiving _ last => last + frameGap < s.now && s.hlc.wire.head?.all (last + frameGap < ·.starts)

end Sys2Proof.Machine
end

