-- ==== Sys2Proof/Machine/LinkCommands.lean ====
section
/-!
DEFINITION. Commands of the host link: the four endings of a received frame (R166), a frame whose kind is none of the
host's, the end of a sent frame, and the two timers of the link.
-/
namespace Sys2Proof.Machine

/-- HOST_FRAME_VALID (R166, R167): a valid frame completes and is taken for processing, waits in the input buffer behind
another, or is an OVERRUN. -/
def execHostFrameValid (kind : Byte) (body : List Byte) (s : State) : Result :=
  .next (event (frameCompletes { kind := kind, body := body }) s)

/-- HOST_FRAME_OVERSIZE (R166). -/
def execHostFrameOversize (s : State) : Result :=
  .next (event (fun s => { s with hlc := { s.hlc with receiver := .hunting, oversize := countTo255 s.hlc.oversize } }) s)

/-- HOST_FRAME_BROKEN (R166). -/
def execHostFrameBroken (s : State) : Result :=
  .next (event (fun s => { s with hlc := { s.hlc with receiver := .hunting, broken := countTo255 s.hlc.broken } }) s)

/-- HOST_FRAME_BAD_CRC (R166). -/
def execHostFrameBadCrc (s : State) : Result :=
  .next (event (fun s => { s with hlc := { s.hlc with receiver := .hunting, badCrc := countTo255 s.hlc.badCrc } }) s)

/-- UNKNOWN_KIND (R168, R199): a frame of a kind that is none of the host's is refused UNKNOWN-KIND. A kind of the
host's is no such command: its frame only arrives (log 3). -/
def execUnknownKind (kind : Byte) (body : List Byte) (s : State) : Result :=
  .next (if isHostKind kind then event (frameCompletes { kind := kind, body := body }) s
    else hostRecord { kind := kind, body := body } id s)

/-- FRAME_SENT (R169): the frame being sent has ended, and the next of the queue starts. -/
def execFrameSent (s : State) : Result :=
  .next (event (fun s => { s with hlc := { s.hlc with sending := none }.pump }) s)

/-- FW_STALE (R171): in ACTIVE the tell age reaches 500 ms. -/
def execFwStale (s : State) : Result :=
  .next (event (fun s =>
    if s.pwc.power = .active ∧ s.hlc.stale = false then becomeStale (reach (s.hlc.lastTell + freshPeriod) s) else s) s)

/-- LINK_SILENT (R172): the silence timer reaches 1000 ms. No status matter is named: only leaving SILENT is one. -/
def execLinkSilent (s : State) : Result :=
  .next (event (fun s =>
    match s.hlc.silence with
    | some d =>
      if s.pwc.power = .active then
        let s1 := reach d s
        { s1 with hlc := { s1.hlc with silent := true, silence := none } }
      else s
    | none => s) s)

end Sys2Proof.Machine
end

