-- ==== Sys2Proof/Machine/PowerCommands.lean ====
section
/-!
DEFINITION. Commands of the Power Controller and the Store Controller: the three resets, the end of the store load, the
end of a block write and the aging sweep.
-/
namespace Sys2Proof.Machine

/-- POWER_ON (R186): the reset taken when the supply is applied. A reset input held active keeps the part in reset. -/
def execPowerOn (s : State) : Result := .next (doReset .powerOn s.pwc.held s)

/-- RESET_LINE_ASSERT (R186): the part is in reset until the line is released. -/
def execResetLineAssert (s : State) : Result := .next (doReset .resetLine true s)

/-- RESET_LINE_RELEASE (R186): START begins at the release of a held line. -/
def execResetLineRelease (s : State) : Result :=
  .next (if s.pwc.held then doReset .resetLine false s else s)

/-- The reply of the accepted RESTART has been sent (R186). -/
def restartReplySent (s : State) : Bool :=
  s.hlc.sending != some (.ok 0x0F) && !s.hlc.queue.contains (.ok 0x0F)

/-- RESTART_RESET (R186): the reset of an accepted RESTART, once its reply has been sent (log 22). -/
def execRestartReset (s : State) : Result :=
  .next (if !s.pwc.held && s.pwc.restartPending && restartReplySent s then doReset .restart false s else s)

/-- STORE_LOAD_DONE (R182, R187): the four blocks are in working memory and the part becomes ACTIVE. -/
def execStoreLoadDone (s : State) : Result :=
  .next (event (fun s => if s.pwc.power = .start then completeLoad s else s) s)

/-! ### STORE_WRITE_END -/

/-- The result of a commissioning or release write (R160). -/
def serviceResult (aborted good : Bool) : ServiceResult :=
  if aborted then .aborted else if good then .done else .store

/-- A commissioning or release write that has ended (R160): IDLE, STORE set by a failed write, SERVICE-DONE. -/
def endServiceWrite (w : ServiceWrite) (good : Bool) (s : State) : State :=
  let s1 := { s with svc := { s.svc with state := .idle, write := none } }
  let s2 := if good then s1 else setSticky .store s1
  send (.serviceDone w.op w.target (serviceResult w.aborted good) (if w.aborted then some good else none)) s2

/-- The block's write was the one a commissioning or release waits for. -/
def reportWrite (b : StoreBlock) (good : Bool) (s : State) : State :=
  match s.svc.write with
  | some w => if w.block = b && w.begun then endServiceWrite w good s else s
  | none => s

/-- The work of a write's end (R184): the copy, STORE-FAULT, the report to whoever asked, the next write, and a
standby entry that waited for it (R189). -/
def writeEnded (b : StoreBlock) (good : Bool) (s : State) : State :=
  let s1 := setStoreFault b (!good) { s with stc := { closeCopy b good s.stc with writing := none } }
  let s2 := nextWrite (reportWrite b good s1)
  if s2.pwc.standbyEntry && entryDone s2 then enterStandby s2 else s2

/-- STORE_WRITE_END (R184): the write in progress ends and its block is read back. -/
def execStoreWriteEnd (good : Bool) (s : State) : Result :=
  .next (event (fun s =>
    match s.stc.writing with
    | some b => writeEnded b good s
    | none => s) s)

/-- AGING_SWEEP (R191, R51): the count has reached 60 minutes of ACTIVE time; the Load Table sweeps, and the count
starts again from 0. Before the first census completion LOADS-FULL stays as it is (log 20). -/
def execAgingSweep (s : State) : Result :=
  .next (event (fun s =>
    match s.pwc.agingSince with
    | some t =>
      let s1 := reach (t + (agingPeriod - s.pwc.agingCount)) s
      let s2 := { s1 with
        pwc := { s1.pwc with agingCount := 0, agingSince := some s1.now }
        ldt := sweep (identitiesOf s1.clc.table) s1.ldt }
      if s2.ldt.signatureTrack.isSome then setLoadsFull (loadsFullDue s2.ldt) s2 else s2
    | none => s) s)

end Sys2Proof.Machine
end

