-- ==== Sys2Proof/Machine/SenseEvents.lean ====
section
/-!
DEFINITION. Commands of sensing and judgement: the scans, the window completions, the settle timers and the cadence
watches (01, 04, 05).
-/
namespace Sys2Proof.Machine

/-- SCAN (R1): the next 2 ms scan, in START and ACTIVE. -/
def execScan (codes : ScanCodes) (s : State) : Result :=
  .next (event (fun s => if s.pwc.power = .standby then s else scanAt codes (max s.now s.sfe.nextScan) s) s)

/-- SUPPLY_WINDOW_COMPLETE (R3): the end of the period of the supply window's last scan. -/
def execSupplyWindowComplete (s : State) : Result :=
  .next (event (fun s =>
    match s.sfe.supplyDone with
    | some (w, t) => if s.pwc.power = .standby then s else completeSupply w t (reach t s)
    | none => s) s)

/-- ZERO_WINDOW_COMPLETE (R8). -/
def execZeroWindowComplete (c : Circuit) (s : State) : Result :=
  .next (event (fun s =>
    match (s.sfe.circuits.get c).phase, (s.sfe.circuits.get c).done with
    | .offSettled, some (w, t) => completeZero c w (reach t s)
    | _, _ => s) s)

/-- SETTLE_EXPIRY (R7): the settle timer counts in ACTIVE only. -/
def execSettleExpiry (c : Circuit) (s : State) : Result :=
  .next (event (fun s =>
    match (s.sfe.circuits.get c).settleTimer with
    | some d =>
      if s.pwc.power = .active then
        let s1 := reach d s
        setCircuit c (expireSettle d (s1.sfe.circuits.get c)) s1
      else s
    | none => s) s)

/-! ### Offers (R10, R15) -/

/-- The offer of a completed judgement window (R10). -/
def offerOf (c : Circuit) (w : Window) (t : Nat) (x : CircuitSense) : Offer :=
  { circuit := c, time := t, mean := w.mean, zero := x.zero, volts := w.supplyMean, saturated := w.saturated,
    settleEnd := x.settleEnd, parked := false }

/-- The offer of one standby scan (R15): a window of one sample. -/
def parkedOffer (c : Circuit) (p : Params) (codes : ScanCodes) (t : Nat) (x : CircuitSense) : Offer :=
  { circuit := c, time := t, mean := sampleCurrent (p.gain.get c) (codes.current.get c), zero := x.zero,
    volts := sampleSupply codes.supply, saturated := codeSaturated (codes.current.get c), settleEnd := x.settleEnd,
    parked := true }

/-- VOLTAGE left set by an offer out of the voltage window, whatever the supply window gives at the same scan (R11). -/
def offerVoltage (o : Offer) (s : State) : State :=
  if outOfWindow o.volts then
    setVoltage true { s with sfe := { s.sfe with voltageMark := some o.time } }
  else s

/-- An offer judged, its outcomes handed over, and then its learning and capture values (R84, R100). -/
def judge (o : Offer) (s : State) : State :=
  let t := takeOffer o s
  let rem := remainderView s o.circuit
  let step := judgeOffer o s
  handValues o t rem (if t.result.isSome then handOver step.2 step.1 else step.1)

/-- The completion of an ON-SETTLED window at t: the instant, its flags and its offer (R9 to R11). -/
def completeJudgement (c : Circuit) (w : Window) (t : Nat) (s : State) : State :=
  let x := s.sfe.circuits.get c
  let o := offerOf c w t x
  let s1 := setCircuit c { x with done := none, nextStart := some (nextWindowStart s.params t) } s
  judge o (offerVoltage o (setSenseSat c w.saturated s1))

/-- The completion of a circuit's full window, by the circuit's phase, with the time it carries (R8, R9). -/
def completeWindow (c : Circuit) (x : CircuitSense) (s : State) : State :=
  match x.phase, x.done with
  | .onSettled, some (w, t) => completeJudgement c w t s
  | .offSettled, some (w, _) => completeZero c w s
  | _, _ => s

/-- JUDGEMENT_INSTANT (R9, R10). -/
def execJudgementInstant (c : Circuit) (s : State) : Result :=
  .next (event (fun s =>
    match (s.sfe.circuits.get c).phase, (s.sfe.circuits.get c).done with
    | .onSettled, some (w, t) => completeJudgement c w t (reach t s)
    | _, _ => s) s)

/-- One PARKED-ON circuit's window and offer in a standby scan; what the Fault Table tells is gathered (R15, R101). -/
def parkedStep (codes : ScanCodes) (acc : State × List FltEffect) (c : Circuit) : State × List FltEffect :=
  let x := acc.1.sfe.circuits.get c
  if x.phase = .parkedOn then
    let o := parkedOffer c acc.1.params codes acc.1.now x
    let step := judgeOffer o (setSenseSat c o.saturated acc.1)
    (step.1, acc.2 ++ step.2)
  else acc

/-- The whole of a standby scan at the present moment: the supply reading with VOLTAGE and the low count, the parked
offers, and one hand-over (R15, R126, R192). -/
def standbyScanWork (codes : ScanCodes) (s : State) : State :=
  let v := sampleSupply codes.supply
  let s1 := setVoltage (outOfWindow v) { s with sfe := { s.sfe with supplyReading := v } }
  let step := allCircuits.foldl (parkedStep codes) (countLowSupply s1, [])
  handOver step.2 step.1

/-- STANDBY_SCAN (R15). -/
def execStandbyScan (codes : ScanCodes) (s : State) : Result :=
  .next (event (fun s =>
    if s.pwc.power = .standby then
      let s1 := reach s.sfe.standbyScan s
      standbyScanWork codes { s1 with sfe := { s1.sfe with standbyScan := s1.now + standbyScanPeriod } }
    else s) s)

/-! ### Cadence (R80) -/

/-- The significant outcome of an expired watch (R80, R98). -/
def expiryVerdict (c : Circuit) : Verdict :=
  { key := .cadence c, kind := some .cadence, identity := none, expected := 0, deficit := 0 }

/-- A watch loaded again at once (R80). -/
def reloadWatch (c : Circuit) (period : Nat) (s : State) : State :=
  { s with jge := { s.jge with watches := s.jge.watches.set c (loadWatch s c period) } }

/-- CADENCE_EXPIRY (R80): the outcome, unless withheld (R81), and the load. -/
def execCadenceExpiry (c : Circuit) (s : State) : Result :=
  .next (event (fun s =>
    match (s.jge.watches.get c).armed with
    | some a =>
      let s1 := reach a.expires s
      reloadWatch c a.period
        (if withheld s1 c then s1 else onFaults (applyBatch s1.params [expiryVerdict c]) s1)
    | none => s) s)

end Sys2Proof.Machine
end

