-- ==== Sys2Proof/Machine/Requests.lean ====
section
/-!
DEFINITION. Host requests that read the part, start a census, relearn, park, restart and clear the wake causes, and
the two tells (09, section 9.10). A reply is placed before its effects (R202).
-/
namespace Sys2Proof.Machine

/-! ### Reading -/

/-- The owner's work of IDENTIFY (R175). -/
def answerIdentify (s : State) : State :=
  send (.identify partCode Config.revision Config.storeFormat s.pwc.power s.svc.mode) s

/-- IDENTIFY. -/
def execIdentify (body : List Byte) (s : State) : Result :=
  .next (hostRecord { kind := 0x01, body := body } answerIdentify s)

/-- STATUS (R176): the whole content in parts. -/
def execStatus (body : List Byte) (s : State) : Result :=
  .next (hostRecord { kind := 0x02, body := body } (fun s => sendAll (statusReply s) s) s)

/-- READ_CHAIN (R42). -/
def execReadChain (body : List Byte) (s : State) : Result :=
  .next (hostRecord { kind := 0x04, body := body } (fun s => sendAll (chainReply s) s) s)

/-- The owner's work of READ-LOADS (R60). -/
def answerReadLoads (index : Nat) (s : State) : State :=
  if 27 < index then refuse 0x05 .range s
  else if s.stc.writing = some (blockOfIndex index) then refuse 0x05 .busy s
  else send (.loads (entryCount s.ldt) ((entryAt s.ldt index).map (entryReport s.params))) s

/-- READ_LOADS. -/
def execReadLoads (body : List Byte) (s : State) : Result :=
  .next (hostRecord { kind := 0x05, body := body } (answerReadLoads (byteAt body 0).toNat) s)

/-- The owner's work of READ-FAULTS (R121). -/
def answerReadFaults (position : Nat) (s : State) : State :=
  if 31 < position then refuse 0x06 .range s
  else send (.faults (recordCount s.flt) s.flt.activation s.flt.saturated s.flt.fastLeft s.flt.fastRight
    (recordAt s.flt position)) s

/-- READ_FAULTS. -/
def execReadFaults (body : List Byte) (s : State) : Result :=
  .next (hostRecord { kind := 0x06, body := body } (answerReadFaults (byteAt body 0).toNat) s)

/-- The owner's work of DISPLAY (R138): the reply, and the snapshot that follows it. -/
def answerDisplay (s : State) : State := sendSnapshot (send (.display (displayReport s)) s)

/-- DISPLAY. -/
def execDisplay (body : List Byte) (s : State) : Result :=
  .next (hostRecord { kind := 0x07, body := body } answerDisplay s)

/-! ### Census and RELEARN -/

/-- The owner's work of CENSUS (R24). -/
def answerCensus (s : State) : State :=
  if s.clc.census.isSome then refuse 0x03 .busy s else triggerCensus (send (.ok 0x03) s)

/-- CENSUS. -/
def execCensus (body : List Byte) (s : State) : Result :=
  .next (hostRecord { kind := 0x03, body := body } answerCensus s)

/-- What RELEARN's tests answer: a refusal in the order of R58, or the subject and its serving index. -/
def relearnTarget (code : Byte) (s : State) : Except Reason (Subject × Nat) :=
  match subjectOf code with
  | none => .error .range
  | some t =>
    if s.clc.census.isSome then .error .busy
    else
      match servingIndex s.ldt t with
      | none => .error .state
      | some i =>
        match entryAt s.ldt i with
        | none => .error .state
        | some e => if e.lock = .commissioned then .error .locked else .ok (t, i)

/-- The owner's work of RELEARN (R58, R59). -/
def answerRelearn (code : Byte) (set : CircuitSet) (s : State) : State :=
  match relearnTarget code s with
  | .error r => refuse 0x0C r s
  | .ok (t, i) =>
    let s1 := send (.relearn i set) s
    removeLamps t set (setLdt (editEntry i (relearnEntry set) s1.ldt) s1)

/-- RELEARN. -/
def execRelearn (body : List Byte) (s : State) : Result :=
  .next (hostRecord { kind := 0x0C, body := body } (answerRelearn (byteAt body 0) (byteAt body 1)) s)

/-! ### STANDBY, RESTART, CLEAR-WAKE -/

/-- The owner's work of STANDBY (R188). -/
def answerStandby (s : State) : State :=
  if s.svc.mode then refuse 0x0E .state s
  else if s.pwc.standbyEntry then refuse 0x0E .busy s
  else beginEntry (send (.ok 0x0E) s)

/-- STANDBY. -/
def execStandby (body : List Byte) (s : State) : Result :=
  .next (hostRecord { kind := 0x0E, body := body } answerStandby s)

/-- The owner's work of RESTART (R186). -/
def answerRestart (s : State) : State :=
  if s.stc.writing.isSome || !s.stc.queue.isEmpty then refuse 0x0F .busy s
  else
    let s1 := send (.ok 0x0F) s
    { s1 with pwc := { s1.pwc with restartPending := true } }

/-- RESTART. -/
def execRestart (body : List Byte) (s : State) : Result :=
  .next (hostRecord { kind := 0x0F, body := body } answerRestart s)

/-- The named flags cleared; the record is emptied when no flag remains (R194). -/
def clearFlags (w : WakeSet) (p : Pwc) : Pwc :=
  let flags := p.wakeFlags.minus w
  { p with wakeFlags := flags, wakeRecord := if flags.isEmpty then none else p.wakeRecord }

/-- The owner's work of CLEAR-WAKE (R194): the reply carries the flags still set, and the wake record as it stood before
the clear (DEDUCED, log 36). -/
def answerClearWake (code : Nat) (s : State) : State :=
  match wakeSetOf code with
  | none => refuse 0x10 .range s
  | some w =>
    let s1 := { s with pwc := clearFlags w s.pwc }
    send (.clearWake s1.pwc.wakeFlags s.pwc.wakeRecord) s1

/-- CLEAR_WAKE. -/
def execClearWake (body : List Byte) (s : State) : Result :=
  .next (hostRecord { kind := 0x10, body := body } (answerClearWake (byteAt body 0).toNat) s)

/-! ### The FUNCTION tell (R170) -/

/-- The tell accepted: words, tell age, first-tell mark and staleness (R170). -/
def acceptWord (new : FunctionWord) (s : State) : State :=
  setStale false { s with hlc := { s.hlc with
    word := new, previous := s.hlc.word, lastTell := s.now, firstTell := false } }

/-- The Sense Front End's part: a tell that ends staleness settles the WAITING circuits (R12), any other gives the
command edges (R6). -/
def senseTell (ended : Bool) (old new : FunctionWord) (s : State) : State :=
  { s with sfe := { s.sfe with circuits := s.sfe.circuits.mapAt fun c x =>
      if ended then freshCircuit s.params s.now new c x else edgeCircuit s.params s.now old new c x } }

/-- A GOOD or significant outcome of a cadence watch: figures 0 and 0 (R98). -/
def cadenceVerdict (c : Circuit) (kind : Option Kind) : Verdict :=
  { key := .cadence c, kind := kind, identity := none, expected := 0, deficit := 0 }

/-- An OFF-to-ON edge of an armed watch's circuit loads the watch (R79). -/
def edgeLoads (old new : FunctionWord) (s : State) : State :=
  setWatches (fun c x =>
    match x.armed with
    | some a => if !itemOn old c && itemOn new c then loadWatch s c a.period else x
    | none => x) s

/-- The GOOD outcomes the edges of a tell give: one for each armed watch whose circuit turns on, unless withheld
(R79, R81). The outcomes of one tell go to the Fault Table in one hand-over (DESIGN CHOICE, log 41). -/
def edgeOutcomes (old new : FunctionWord) (s : State) : List Verdict :=
  (allCircuits.filter fun c =>
    !itemOn old c && itemOn new c && (s.jge.watches.get c).armed.isSome && !withheld s c).map fun c =>
      cadenceVerdict c none

/-- The cadence watches' part of a tell: the evaluation of R77, and the edges of R79, which a tell that ends staleness
does not carry. -/
def watchTell (ended : Bool) (old new : FunctionWord) (s : State) : State :=
  let s1 := evaluateWatches s
  if ended then s1
  else
    let s2 := edgeLoads old new s1
    match edgeOutcomes old new s2 with
    | [] => s2
    | vs => onFaults (applyBatch s2.params vs) s2

/-- The COUPLED item is item 14 (04). -/
def coupledChanged (old new : FunctionWord) : Bool := old.getLsbD 14 != new.getLsbD 14

/-- The Chain Line Controller's part: a COUPLED edge, which the first tell after a reset does not carry (R22, R170). -/
def chainTell (first : Bool) (old new : FunctionWord) (s : State) : State :=
  if !first && coupledChanged old new then coupledEdge s else s

/-- A scan taken at this very moment has filled the circuit's window, whose completion R1 puts at the end of the scan's
period. -/
def scannedNow (now : Nat) (x : CircuitSense) : Bool := x.done.any fun d => d.2 = now + scanPeriod

/-- A scan taken at the moment of the tell, before it, completes the window it filled, of a circuit the tell gives an
edge: its instant or zero update takes effect, as an event of its own, before the edge (R6; log 35). -/
def completeScanned (old new : FunctionWord) (s : State) (c : Circuit) : State :=
  let x := s.sfe.circuits.get c
  if itemOn old c != itemOn new c && scannedNow s.now x then finish (completeWindow c x s) else s

/-- The completions that come before the edges of a tell (R6). A tell that ends staleness carries no edge (R12). -/
def scanFirst (ended : Bool) (old new : FunctionWord) (s : State) : State :=
  if ended then s else allCircuits.foldl (completeScanned old new) s

/-- The owner's work of FUNCTION: a scan of this moment first, then the word, and its readers in turn (R6, R170, log 9). -/
def answerFunction (new : FunctionWord) (s : State) : State :=
  let old := s.hlc.word
  let ended := s.hlc.stale
  let first := s.hlc.firstTell
  chainTell first old new
    (watchTell ended old new (senseTell ended old new (acceptWord new (scanFirst ended old new s))))

/-- FUNCTION. -/
def execFunction (body : List Byte) (s : State) : Result :=
  .next (hostRecord { kind := 0x20, body := body } (answerFunction (wordOf body)) s)

/-- CLUSTER_REPORT (R140). -/
def execClusterReport (body : List Byte) (s : State) : Result :=
  .next (hostRecord { kind := 0x21, body := body } (takeReport (reportContent body)) s)

end Sys2Proof.Machine
end

