-- ==== Sys2Proof/Machine/ServiceRequests.lean ====
section
/-!
DEFINITION. The Service Controller's requests and the SERVICE line (08): service mode, commissioning, release, clearing
faults and reading the capture. R154 has been applied before an owner's work here (Link.lean).
-/
namespace Sys2Proof.Machine

def setSvc (v : Svc) (s : State) : State := { s with svc := v }

/-! ### Service mode (R151 to R153) -/

/-- The owner's work of SERVICE-ENTER (R151). -/
def answerServiceEnter (s : State) : State :=
  if s.svc.line then send (.ok 0x11) (setSvc { s.svc with mode := true } s) else refuse 0x11 .pin s

/-- SERVICE_ENTER. -/
def execServiceEnter (body : List Byte) (s : State) : Result :=
  .next (hostRecord { kind := 0x11, body := body } answerServiceEnter s)

/-- SERVICE_LEAVE (R151, R152). -/
def execServiceLeave (body : List Byte) (s : State) : Result :=
  .next (hostRecord { kind := 0x12, body := body } (fun s => serviceOff (send (.ok 0x12) s)) s)

/-- The Service Controller after SERVICE-RESET: errors cleared, any operation ended, records discarded (R153). -/
def clearedService (v : Svc) : Svc :=
  { v with state := .idle, sticky := Sticky.none, capture := none, captureTimer := none, release := none }

/-- SERVICE_RESET (R153). -/
def execServiceReset (body : List Byte) (s : State) : Result :=
  .next (hostRecord { kind := 0x13, body := body } (fun s => setSvc (clearedService s.svc) (send (.ok 0x13) s)) s)

/-- SERVICE_LINE_FALL (R151): a change from high to low turns service mode off. The line is an input and is followed
in reset too. -/
def execServiceLineFall (s : State) : Result :=
  let s1 := setSvc { s.svc with line := false } s
  .next (if s.svc.line && s.svc.mode then event serviceOff s1 else s1)

/-- SERVICE_LINE_RISE (R151): service mode does not turn on. -/
def execServiceLineRise (s : State) : Result := .next (setSvc { s.svc with line := true } s)

/-! ### Commissioning (R155 to R160) -/

/-- What COMMISSION-BEGIN's tests 3 to 8 answer (R155). -/
def commissionTest (code : Byte) (set : CircuitSet) (s : State) : Except Reason Capture :=
  if anySticky s.svc.sticky then .error .errorPending
  else
    match subjectOf code with
    | none => .error .range
    | some t => if set = 0 then .error .range else if s.clc.census.isSome then .error .busy else beginCapture s t set

/-- The owner's work of COMMISSION-BEGIN (R155). -/
def answerCommissionBegin (code : Byte) (set : CircuitSet) (s : State) : State :=
  match commissionTest code set s with
  | .error r => refuse 0x14 r s
  | .ok k => startCapture k (send (.commissionBegin k.index) s)

/-- COMMISSION_BEGIN. -/
def execCommissionBegin (body : List Byte) (s : State) : Result :=
  .next (hostRecord { kind := 0x14, body := body } (answerCommissionBegin (byteAt body 0) (byteAt body 1)) s)

/-- The service state becomes WRITING and the block that holds the entry is asked for (R159, R162). -/
def startServiceWrite (op : ServiceOp) (target : ServiceTarget) (index : Nat) (s : State) : State :=
  let b := blockOfIndex index
  askWrite b (setSvc { s.svc with
    state := .writing, captureTimer := none, release := none
    write := some { op := op, target := target, index := index, block := b, begun := false, aborted := false } } s)

/-- The owner's work of COMMISSION-CONFIRM in CAPTURING (R158, R159). -/
def answerCommissionConfirm (echo : Byte) (id : Identity) (s : State) : State :=
  match s.svc.capture with
  | none => refuse 0x15 .sequence s
  | some k =>
    if subjectOf echo ≠ some k.target ∨ id ≠ k.identity then
      endCapture .mismatch (send (.confirm .commission (some .mismatch)) s)
    else if !captureComplete k then
      endCapture .incomplete (send (.confirm .commission (some .incomplete)) s)
    else
      let s1 := send (.confirm .commission none) s
      startServiceWrite .commission (.subject k.target) k.index
        (setLdt (editEntry k.index (commissionEntry k.records) s1.ldt) s1)

/-- COMMISSION_CONFIRM. -/
def execCommissionConfirm (body : List Byte) (s : State) : Result :=
  .next (hostRecord { kind := 0x15, body := body } (answerCommissionConfirm (byteAt body 0) (identityAt body 1)) s)

/-- READ_CAPTURE (R164). -/
def execReadCapture (body : List Byte) (s : State) : Result :=
  .next (hostRecord { kind := 0x16, body := body } (fun s => sendAll (captureReply s) s) s)

/-! ### Release (R161, R162) -/

/-- What RELEASE-BEGIN's tests 3 to 5 answer (R161). -/
def releaseTest (index : Nat) (s : State) : Except Reason Entry :=
  if anySticky s.svc.sticky then .error .errorPending
  else if 27 < index then .error .range
  else
    match entryAt s.ldt index with
    | none => .error .state
    | some e => if e.lock = .opened then .error .state else .ok e

/-- The owner's work of RELEASE-BEGIN (R161). -/
def answerReleaseBegin (index : Nat) (s : State) : State :=
  match releaseTest index s with
  | .error r => refuse 0x17 r s
  | .ok e =>
    startRelease index (releaseIdentity e.key) (send (.releaseBegin (isRemainder e.key) (releaseIdentity e.key)) s)

/-- RELEASE_BEGIN. -/
def execReleaseBegin (body : List Byte) (s : State) : Result :=
  .next (hostRecord { kind := 0x17, body := body } (answerReleaseBegin (byteAt body 0).toNat) s)

/-- The released entry in working memory, with the removals of the subject it serves (R162). -/
def applyRelease (index : Nat) (s : State) : State :=
  let s1 := setLdt (editEntry index releaseEntry s.ldt) s
  match servedSubject s1.ldt index with
  | some t => removeLamps t 0xFF s1
  | none => s1

/-- The owner's work of RELEASE-CONFIRM in RELEASE-PENDING (R162). -/
def answerReleaseConfirm (index : Nat) (id : Identity) (s : State) : State :=
  match s.svc.release with
  | none => refuse 0x18 .sequence s
  | some r =>
    if index ≠ r.index ∨ id ≠ r.identity then
      endRelease .mismatch (send (.confirm .release (some .mismatch)) s)
    else
      startServiceWrite .release (.index index) index (applyRelease index (send (.confirm .release none) s))

/-- RELEASE_CONFIRM. -/
def execReleaseConfirm (body : List Byte) (s : State) : Result :=
  .next (hostRecord { kind := 0x18, body := body }
    (answerReleaseConfirm (byteAt body 0).toNat (identityAt body 1)) s)

/-! ### CLEAR-FAULTS (R163, R117) -/

/-- The owner's work of CLEAR-FAULTS: the number of records it removes is replied, then they go. -/
def answerClearFaults (s : State) : State :=
  clearFaults (send (.clearFaults (recordsWhere (fun r => r.kind != .nodeLost) s.flt).length) s)

/-- CLEAR_FAULTS. -/
def execClearFaults (body : List Byte) (s : State) : Result :=
  .next (hostRecord { kind := 0x19, body := body } answerClearFaults s)

end Sys2Proof.Machine
end

