-- ==== Sys2Proof/Machine/SettingsRequests.lean ====
section
/-!
DEFINITION. Host requests that write, read and store parameters and rules (R71 to R74, R173, R174, R185).
-/
namespace Sys2Proof.Machine

/-! ### Parameters -/

/-- What a written parameter does at the moment of the write: a changed learn count ends every learning run (R57), a
circuit severity re-evaluates the list (R124). -/
def parameterEffect (id : Nat) (old new : Params) (s : State) : State :=
  if id = 18 then (if old.learnCount = new.learnCount then s else { s with ldt := endAllRuns s.ldt })
  else if id = 6 then reevaluate (listView s.dsr) s
  else s

/-- The owner's work of SET-PARAM (R173). -/
def answerSetParam (id circuit value : Nat) (s : State) : State :=
  match paramStore s.params id circuit value with
  | none => refuse 0x08 .range s
  | some p =>
    let stored := (paramValue p id circuit).getD value
    let s1 := send (.setParam id circuit stored (stored != value)) s
    parameterEffect id s.params p { s1 with params := p }

/-- SET_PARAM. -/
def execSetParam (body : List Byte) (s : State) : Result :=
  .next (hostRecord { kind := 0x08, body := body }
    (answerSetParam (byteAt body 0).toNat (byteAt body 1).toNat (numberAt body 2 2)) s)

/-- The owner's work of READ-PARAM (R174). -/
def answerReadParam (id circuit : Nat) (s : State) : State :=
  match paramValue s.params id circuit with
  | none => refuse 0x09 .range s
  | some v => send (.readParam id circuit v (paramValue (storedParams s.stc) id circuit != some v)) s

/-- READ_PARAM. -/
def execReadParam (body : List Byte) (s : State) : Result :=
  .next (hostRecord { kind := 0x09, body := body } (answerReadParam (byteAt body 0).toNat (byteAt body 1).toNat) s)

/-! ### Rules -/

def setRule (n : Nat) (r : Rule) (s : State) : State := { s with jge := { s.jge with rules := s.jge.rules.set n r } }

/-- The evaluation an accepted WRITE-RULE gives; no watch arms while the word is stale (R77, log 31). -/
def evaluateAfterWrite (s : State) : State := if s.hlc.stale then s else evaluateWatches s

/-- The owner's work of WRITE-RULE (R71 to R73): the rule as stored is replied and replaced, and every watch is
re-evaluated. -/
def answerWriteRule (body : List Byte) (s : State) : State :=
  match ruleOf body with
  | none => refuse 0x0A .range s
  | some (n, r) =>
    let stored := adjustRule r
    evaluateAfterWrite (setRule n stored (send (.writeRule n stored (stored != r)) s))

/-- WRITE_RULE. -/
def execWriteRule (body : List Byte) (s : State) : Result :=
  .next (hostRecord { kind := 0x0A, body := body } (answerWriteRule body) s)

/-- The owner's work of READ-RULE (R74). -/
def answerReadRule (n : Nat) (s : State) : State :=
  if 31 < n then refuse 0x0B .range s else send (ruleReply s.jge.rules s.hlc.word n) s

/-- READ_RULE. -/
def execReadRule (body : List Byte) (s : State) : Result :=
  .next (hostRecord { kind := 0x0B, body := body } (answerReadRule (byteAt body 0).toNat) s)

/-- The owner's work of STORE-CONFIG (R185). -/
def answerStoreConfig (s : State) : State := askWrite .rules (askWrite .config (send (.ok 0x0D) s))

/-- STORE_CONFIG. -/
def execStoreConfig (body : List Byte) (s : State) : Result :=
  .next (hostRecord { kind := 0x0D, body := body } answerStoreConfig s)

end Sys2Proof.Machine
end

