-- ==== Sys2Proof/Machine/TimerEvents.lean ====
section
/-!
DEFINITION. Commands of the remaining timers: resolved lingers, the reconcile timer, the capture window and the release
timer (07, 08).
-/
namespace Sys2Proof.Machine

/-- The running linger of the RESOLVED entry with an id (R133). -/
def lingerOf (id : Nat) (list : List DisplayEntry) : Option Nat :=
  (list.find? fun e => e.id = id && !e.live).bind fun e =>
    match e.linger with
    | some (.running d) => some d
    | _ => none

/-- LINGER_EXPIRY (R133): the entry is removed and the list re-evaluated. -/
def execLingerExpiry (entry : Nat) (s : State) : Result :=
  .next (event (fun s =>
    match lingerOf entry s.dsr.list with
    | some d =>
      let s1 := reach d s
      reevaluate (listView s1.dsr) (setList (s1.dsr.list.filter (·.id != entry)) s1)
    | none => s) s)

/-- RECONCILE_EXPIRY (R141, R142): PENDING becomes DIVERGED, the timer stopped. -/
def execReconcileExpiry (s : State) : Result :=
  .next (event (fun s =>
    match s.dsr.reconcile with
    | some d =>
      let s1 := reach d s
      let s2 := { s1 with dsr := { s1.dsr with reconcile := none } }
      if s2.dsr.mirror = .pending then setMirror .diverged s2 else s2
    | none => s) s)

/-- CAPTURE_WINDOW_EXPIRY (R157): the capture ends INCOMPLETE. -/
def execCaptureWindowExpiry (s : State) : Result :=
  .next (event (fun s =>
    match s.svc.captureTimer with
    | some d => if s.svc.state = .capturing then endCapture .incomplete (reach d s) else s
    | none => s) s)

/-- RELEASE_TIMER_EXPIRY (R161): the pending release ends SEQUENCE. -/
def execReleaseTimerExpiry (s : State) : Result :=
  .next (event (fun s =>
    match s.svc.release with
    | some r => if s.svc.state = .releasePending then endRelease .sequence (reach r.expires s) else s
    | none => s) s)

end Sys2Proof.Machine
end

