-- ==== Sys2Proof/Machine/Dispatch.lean ====
section
/-!
DEFINITION. The dispatch: one arm for each command, each a direct call of the command's own meaning.
-/
namespace Sys2Proof.Machine

def exec (i : Instr) (s : State) : Host.Outcome State Fault Refusal :=
  match i with
  | .powerOn => Sys2Proof.Machine.execPowerOn s
  | .resetLineAssert => Sys2Proof.Machine.execResetLineAssert s
  | .resetLineRelease => Sys2Proof.Machine.execResetLineRelease s
  | .restartReset => Sys2Proof.Machine.execRestartReset s
  | .storeLoadDone => Sys2Proof.Machine.execStoreLoadDone s
  | .hostFrameValid kind body => Sys2Proof.Machine.execHostFrameValid kind body s
  | .hostFrameOversize => Sys2Proof.Machine.execHostFrameOversize s
  | .hostFrameBroken => Sys2Proof.Machine.execHostFrameBroken s
  | .hostFrameBadCrc => Sys2Proof.Machine.execHostFrameBadCrc s
  | .unknownKind kind body => Sys2Proof.Machine.execUnknownKind kind body s
  | .frameSent => Sys2Proof.Machine.execFrameSent s
  | .identify body => Sys2Proof.Machine.execIdentify body s
  | .status body => Sys2Proof.Machine.execStatus body s
  | .census body => Sys2Proof.Machine.execCensus body s
  | .readChain body => Sys2Proof.Machine.execReadChain body s
  | .readLoads body => Sys2Proof.Machine.execReadLoads body s
  | .readFaults body => Sys2Proof.Machine.execReadFaults body s
  | .display body => Sys2Proof.Machine.execDisplay body s
  | .setParam body => Sys2Proof.Machine.execSetParam body s
  | .readParam body => Sys2Proof.Machine.execReadParam body s
  | .writeRule body => Sys2Proof.Machine.execWriteRule body s
  | .readRule body => Sys2Proof.Machine.execReadRule body s
  | .relearn body => Sys2Proof.Machine.execRelearn body s
  | .storeConfig body => Sys2Proof.Machine.execStoreConfig body s
  | .standby body => Sys2Proof.Machine.execStandby body s
  | .restart body => Sys2Proof.Machine.execRestart body s
  | .clearWake body => Sys2Proof.Machine.execClearWake body s
  | .serviceEnter body => Sys2Proof.Machine.execServiceEnter body s
  | .serviceLeave body => Sys2Proof.Machine.execServiceLeave body s
  | .serviceReset body => Sys2Proof.Machine.execServiceReset body s
  | .commissionBegin body => Sys2Proof.Machine.execCommissionBegin body s
  | .commissionConfirm body => Sys2Proof.Machine.execCommissionConfirm body s
  | .readCapture body => Sys2Proof.Machine.execReadCapture body s
  | .releaseBegin body => Sys2Proof.Machine.execReleaseBegin body s
  | .releaseConfirm body => Sys2Proof.Machine.execReleaseConfirm body s
  | .clearFaults body => Sys2Proof.Machine.execClearFaults body s
  | .function body => Sys2Proof.Machine.execFunction body s
  | .clusterReport body => Sys2Proof.Machine.execClusterReport body s
  | .fwStale => Sys2Proof.Machine.execFwStale s
  | .linkSilent => Sys2Proof.Machine.execLinkSilent s
  | .scan codes => Sys2Proof.Machine.execScan codes s
  | .supplyWindowComplete => Sys2Proof.Machine.execSupplyWindowComplete s
  | .zeroWindowComplete c => Sys2Proof.Machine.execZeroWindowComplete c s
  | .settleExpiry c => Sys2Proof.Machine.execSettleExpiry c s
  | .judgementInstant c => Sys2Proof.Machine.execJudgementInstant c s
  | .standbyScan codes => Sys2Proof.Machine.execStandbyScan codes s
  | .cadenceExpiry c => Sys2Proof.Machine.execCadenceExpiry c s
  | .rollSend => Sys2Proof.Machine.execRollSend s
  | .assignSend => Sys2Proof.Machine.execAssignSend s
  | .visitStart => Sys2Proof.Machine.execVisitStart s
  | .repoll => Sys2Proof.Machine.execRepoll s
  | .chainFrameSent => Sys2Proof.Machine.execChainFrameSent s
  | .chainAnswerComplete frame => Sys2Proof.Machine.execChainAnswerComplete frame s
  | .chainAnswerAbandon => Sys2Proof.Machine.execChainAnswerAbandon s
  | .answerWindowClose => Sys2Proof.Machine.execAnswerWindowClose s
  | .strayChainFrame frame => Sys2Proof.Machine.execStrayChainFrame frame s
  | .visitTimeLimit => Sys2Proof.Machine.execVisitTimeLimit s
  | .pollCycleEnd => Sys2Proof.Machine.execPollCycleEnd s
  | .standbyPollCycle => Sys2Proof.Machine.execStandbyPollCycle s
  | .holdoffExpiry => Sys2Proof.Machine.execHoldoffExpiry s
  | .agingSweep => Sys2Proof.Machine.execAgingSweep s
  | .lingerExpiry entry => Sys2Proof.Machine.execLingerExpiry entry s
  | .reconcileExpiry => Sys2Proof.Machine.execReconcileExpiry s
  | .captureWindowExpiry => Sys2Proof.Machine.execCaptureWindowExpiry s
  | .releaseTimerExpiry => Sys2Proof.Machine.execReleaseTimerExpiry s
  | .serviceLineFall => Sys2Proof.Machine.execServiceLineFall s
  | .serviceLineRise => Sys2Proof.Machine.execServiceLineRise s
  | .storeWriteEnd good => Sys2Proof.Machine.execStoreWriteEnd good s

end Sys2Proof.Machine
end

