-- ==== Sys2Proof/Machine/Idle.lean ====
section
/-!
DEFINITION. What the part does when no command waits (log 1): it ends the processing of the frame it has taken (R167);
its receiver takes the next byte from the host's line (R166); and otherwise time passes by one microsecond of the clock.
-/
namespace Sys2Proof.Machine

/-- Time passes by one microsecond. -/
def tick (s : State) : Result := .next { s with now := s.now + 1 }

/-- The receiver's part: a gap breaks the frame being received, before the byte behind it is hunted in; a byte that has
ended is taken, and what it ends is the command it ends with (R166). In reset nothing is received (R180). -/
def listen (s : State) : Result :=
  if s.pwc.held then tick s
  else if gapBreaks s then exec .hostFrameBroken s
  else
    match s.hlc.wire with
    | b :: rest =>
      if b.ends ≤ s.now then
        let heard := s.hlc.receiver.take b
        let s1 := { s with hlc := { s.hlc with wire := rest, receiver := heard.1 } }
        match heard.2 with
        | some ending => exec ending s1
        | none => .next s1
      else tick s
    | [] => tick s

def idle (s : State) : Result :=
  match s.hlc.processing with
  | some w => if takesFrames s then exec (commandOfFrame w.frame) s else listen s
  | none => listen s

end Sys2Proof.Machine
end

