-- ==== Sys2Proof/Safety.lean ====
section
/-!
DEFINITION. What counts as a safe state: the laws the manual states for whole blocks, as predicates on a state.
-/
namespace Sys2Proof.Machine

/-- The two output lines stand exactly as the rest of the state gives them (R145, R193). -/
def LinesLaw (s : State) : Prop := s.dsr.ttfb = ttfbDue s ∧ s.pwc.wake = wakeDue s

/-- What the Load Table hands of a serving entry for circuit c: its index, its lock and its baseline, whose class, while
it is not KNOWN, is FILAMENT in a unit entry and the circuit's present legacy class in a remainder entry (R45, R53). -/
def HandedAs (p : Params) (c : Circuit) (i : Nat) (e : Entry) (t : Option Tracked) : Prop :=
  ∃ b held, held = (e.cells.get c).base ∧ t = some { index := i, lock := e.lock, base := b } ∧
    b = { held with cls := b.cls } ∧ (held.state = .known → b = held) ∧
    (∀ id, held.state ≠ .known → e.key = .unit id → b.cls = .filament) ∧
    (∀ sig, held.state ≠ .known → e.key = .remainder sig → b.cls = p.legacyClass.get c)

/-- What the power state excludes. A standby entry in progress is part of ACTIVE (10, section 10.4). No frame is in
processing or waits in an entry or in STANDBY, where every frame cancels or wakes (R146, R188, R193), and none is in
processing once a RESTART is accepted (R186). Outside ACTIVE, and in an entry, service mode is off (R151); outside
ACTIVE the reconcile timer is stopped and every watch is disarmed (R77, R142). A frame marked as having woken the part
is in processing or waits only in ACTIVE, which its wake began (R195). -/
def PowerLaw (s : State) : Prop :=
  (s.pwc.standbyEntry = true → s.pwc.power = .active) ∧
    (s.pwc.standbyEntry = true ∨ s.pwc.power = .standby →
      s.hlc.processing = none ∧ s.hlc.buffer = none ∧ s.svc.mode = false) ∧
    (s.pwc.restartPending = true → s.hlc.processing = none) ∧
    (s.pwc.power ≠ .active →
      s.svc.mode = false ∧ s.dsr.reconcile = none ∧ (∀ c : Circuit, (s.jge.watches.get c).armed = none) ∧
        waking s = false)

/-- The tables have their fixed places (R44, R63, R104), in working memory and in the store (R181). -/
def SizesLaw (s : State) : Prop :=
  s.ldt.entries.length = 28 ∧ s.flt.records.length = 32 ∧ s.jge.rules.length = 32 ∧
    s.stc.rules.content.length = 32 ∧ s.stc.loadsA.content.length = 12 ∧ s.stc.loadsB.content.length = 16

/-- A list of unit identities a chain table may hold: at most six, none twice (R27). -/
def TableLaw (ids : List Identity) : Prop := ids.length ≤ 6 ∧ ids.Nodup

/-- The ASSIGNs a census has chosen and not yet seen through: the one due, and the one on the line (R28). -/
def openAssigns (k : Clc) : List Assign :=
  (match k.task with
    | some (.assign a) => [a]
    | _ => []) ++
  match k.line with
  | .sending (.assign a) _ | .window (.assign a) _ => [a]
  | _ => []

/-- The chain table and a census's working table hold at most six slots, no identity twice (R27), and at most one
ASSIGN is open, whose unit, when it has a slot to take, still finds room for its identity. -/
def ChainLaw (s : State) : Prop :=
  TableLaw (s.clc.table.map (·.identity)) ∧
    ∀ run, s.clc.census = some run →
      TableLaw (run.table.map (·.identity)) ∧ (openAssigns s.clc).length ≤ 1 ∧
        ∀ a ∈ openAssigns s.clc, a.choice = .slot →
          a.node.identity ∉ run.table.map (·.identity) ∧ run.table.length < 6

/-- The display list holds at most 8 entries (R126). -/
def ListLaw (s : State) : Prop := s.dsr.list.length ≤ 8

/-- The Fault Table never holds two records with the same key (R104). -/
def KeysLaw (f : Flt) : Prop := ((f.records.filterMap id).map (·.key)).Nodup

/-- A side's fast-flash request is set exactly while an ACTIVE or HEALING record of kind OUTAGE or UNIT-LOST stands on
its turn circuit, whatever its subject (R119). -/
def FlashLaw (f : Flt) : Prop :=
  ∀ c : Circuit, c = 0 ∨ c = 1 →
    ((if c = 0 then f.fastLeft else f.fastRight) = true ↔
      ∃ r t, some r ∈ f.records ∧ r.key = .lamp t c ∧ (r.state = .active ∨ r.state = .healing) ∧
        (r.kind = .outage ∨ r.kind = .unitLost))

/-- A host frame that completes now is taken at once: none is processed, none waits, and the frame was the one being
received, so that the receiver hunts (R166, R167). -/
def Free (h : Hlc) : Prop := h.processing = none ∧ h.buffer = none ∧ h.receiver = .hunting

/-- The part is ACTIVE, out of reset and free to take a host frame, with no matter left to report: the state in which a
host record meets its owner as it stands (R167, R168). -/
def Listening (s : State) : Prop :=
  s.pwc.held = false ∧ s.pwc.restartPending = false ∧ s.pwc.standbyEntry = false ∧ s.pwc.power = .active ∧
    Free s.hlc ∧ s.hlc.silent = false ∧ s.hlc.changes = [] ∧ LinesLaw s

/-- The part is in START, out of reset and free to take a host frame (R168, R187). -/
def Starting (s : State) : Prop :=
  s.pwc.held = false ∧ s.pwc.restartPending = false ∧ s.pwc.standbyEntry = false ∧ s.pwc.power = .start ∧
    Free s.hlc ∧ s.hlc.silent = false ∧ LinesLaw s

/-- The state a request leaves when it only replies: the silence timer runs from its full duration (R172), the replies
join the transmit queue in their order (R169), and nothing else changes. -/
def answered (rs : List TxRecord) (s : State) : State :=
  { s with hlc := rs.foldl (fun h r => h.enqueue r) { s.hlc with silence := some (s.now + silencePeriod) } }

/-- Everything that waits to be sent or is being sent, in the order it leaves (R169). -/
def outgoing (h : Hlc) : List TxRecord := h.sending.toList ++ h.queue

/-- What waits to be sent or is being sent but for the two coalesced notices, which may still be withdrawn (R169). -/
def replies (h : Hlc) : List TxRecord := (outgoing h).filter fun r => !r.isSnapshot && !r.isStatusChange

/-- The Host Link Controller after a host record has been answered: the silence timer runs from its full duration
(R172), the transmit queue has moved on, and no change is left to report (R178). -/
def Spoke (s t : State) : Prop :=
  t.hlc =
    { s.hlc with
      sending := t.hlc.sending, queue := t.hlc.queue, silence := some (s.now + silencePeriod), changes := [] }

/-- A record but for its entry id, which the Display Reconciler writes (R112). -/
def FaultRecord.content (r : FaultRecord) : FaultRecord := { r with entryId := none }

/-- The records of the table but for their entry ids. -/
def recordContents (f : Flt) : List (Option FaultRecord) := f.records.map fun o => o.map FaultRecord.content

/-- The Service Controller after a census start, which ends a capture ABORTED (R157). -/
def captureAborted (v : Svc) : Svc :=
  if v.state = .capturing then
    { v with state := .idle, captureTimer := none, sticky := { v.sticky with aborted := true } }
  else v

/-- The place of the unit that had slot n, counted from 1, in a new table; absent where it was dropped (R32). -/
def newPlace (old new : List Identity) (n : Nat) : Option Nat :=
  if n = 0 then none else (old[n - 1]?).bind fun id => (new.findIdx? (· = id)).map (· + 1)

/-- What a completed census leaves of a fault record (R116): one of a dropped unit goes, one of a unit follows it, a
NODE-LOST one goes with its unit enumerated, and a REMAINDER one with its signature changed. -/
def censusRecord (old new : List Identity) (enumerated : Nat) (r : FaultRecord) : Option FaultRecord :=
  match r.key with
  | .lamp (.slot n) c => (newPlace old new n).map fun m => { r with key := .lamp (.slot m) c }
  | .nodeLost n =>
    (newPlace old new n).bind fun m => if m ≤ enumerated then none else some { r with key := .nodeLost m }
  | .lamp .remainder _ => if signatureOf old = signatureOf new then some r else none
  | .disagree _ | .cadence _ => some r

/-- The FAULT reports of what the Fault Table tells, in order (R111, R192). -/
def faultReports (effects : List FltEffect) : List WakeRecord :=
  effects.filterMap fun e =>
    match e with
    | .activated r => some (faultReport r)
    | .removed _ _ => none

/-- The Power Controller after reports taken in STANDBY: every cause's flag is set, and an empty wake record takes the
first report whose cause the mask enables (R193). -/
def Reported (mask : WakeSet) (rs : List WakeRecord) (p q : Pwc) : Prop :=
  (∀ c, q.wakeFlags.has c = (p.wakeFlags.has c || rs.any fun r => r.cause = c)) ∧
    q.wakeRecord = (p.wakeRecord <|> rs.find? fun r => mask.has r.cause)

/-! ### What an event leaves as it was -/

inductive Block where
  | now | freeCount | params | sfe | clc | ldt | jge | flt | dsr | svc | hlc | stc | pwc | pending
deriving DecidableEq, Repr

def Same (s t : State) (b : Block) : Prop :=
  match b with
  | .now => t.now = s.now
  | .freeCount => t.freeCount = s.freeCount
  | .params => t.params = s.params
  | .sfe => t.sfe = s.sfe
  | .clc => t.clc = s.clc
  | .ldt => t.ldt = s.ldt
  | .jge => t.jge = s.jge
  | .flt => t.flt = s.flt
  | .dsr => t.dsr = s.dsr
  | .svc => t.svc = s.svc
  | .hlc => t.hlc = s.hlc
  | .stc => t.stc = s.stc
  | .pwc => t.pwc = s.pwc
  | .pending => t.pending = s.pending

/-- Every part of the state outside the blocks named is unchanged. -/
def OnlyChanges (bs : List Block) (s t : State) : Prop := ∀ b, b ∉ bs → Same s t b

/-- Every block as its chapter gives it after any reset (R17, R43, R62, R76, R85, R122, R148, R150, R180, R197), with
the store copies and the SERVICE line as they were. -/
def AfterReset (cause : ResetCause) (held : Bool) (s t : State) : Prop :=
  (∀ c, (t.sfe.circuits.get c).phase = .waiting ∧ (t.sfe.circuits.get c).settleTimer = none ∧
      (t.sfe.circuits.get c).window = none ∧ (t.sfe.circuits.get c).settleEnd = none ∧
      (t.sfe.circuits.get c).zero = 0 ∧ (t.sfe.circuits.get c).senseSat = false ∧
      (t.sfe.circuits.get c).leak = false ∧ (t.jge.watches.get c) = { armed := none, load := 0 } ∧
      t.jge.summaries.get c = none) ∧
    (t.sfe.supplyWindow = none ∧ t.sfe.supplyReading = 0 ∧ t.sfe.voltage = false) ∧
    (t.clc.table = [] ∧ t.clc.census = none ∧ t.clc.censusNumber = 0 ∧ t.clc.coupling = false ∧
      t.clc.holdoff = none ∧ t.clc.pendingTrigger = false ∧ t.clc.cycleCounter = 0 ∧
      t.clc.counts = { enumerated := 0, retained := 0, duplicates := 0, beyond := 0 } ∧ t.clc.visit = none ∧
      t.clc.line = .idle) ∧
    (t.ldt.slotTrack = [] ∧ t.ldt.signatureTrack = none ∧ t.ldt.loadsFull = false) ∧
    (t.flt.records = List.replicate 32 none ∧ t.flt.activation = 0 ∧ t.flt.saturated = false ∧
      t.flt.fastLeft = false ∧ t.flt.fastRight = false) ∧
    (t.dsr.list = [] ∧ t.dsr.overflow = 0 ∧ t.dsr.idCounter = 1 ∧ t.dsr.mirror = .inStep ∧
      t.dsr.content = { triples := [], overflow := 0 } ∧ t.dsr.reconcile = none ∧ t.dsr.staleAcks = 0 ∧
      t.dsr.ttfb = false) ∧
    (t.svc.mode = false ∧ t.svc.state = .idle ∧ t.svc.sticky = Sticky.none ∧ t.svc.capture = none ∧
      t.svc.captureTimer = none ∧ t.svc.release = none ∧ t.svc.write = none ∧ t.svc.line = s.svc.line) ∧
    (t.hlc.receiver = .hunting ∧ t.hlc.wire = s.hlc.wire.filter (fun b => decide (s.now ≤ b.starts)) ∧
      t.hlc.processing = none ∧ t.hlc.buffer = none ∧ t.hlc.sending = none ∧ t.hlc.queue = [] ∧ t.hlc.word = 0 ∧
      t.hlc.previous = 0 ∧ t.hlc.lastTell = t.now ∧ t.hlc.stale = true ∧ t.hlc.firstTell = true ∧ t.hlc.silent = false ∧
      t.hlc.silence = none ∧ t.hlc.oversize = 0 ∧ t.hlc.broken = 0 ∧ t.hlc.badCrc = 0 ∧ t.hlc.overrun = 0 ∧
      t.hlc.changes = []) ∧
    (t.stc.queue = [] ∧ t.stc.writing = none ∧ t.stc.fault = StoreFaults.none ∧ t.stc.config = s.stc.config ∧
      t.stc.rules = s.stc.rules ∧ t.stc.loadsA = s.stc.loadsA ∧ t.stc.loadsB = s.stc.loadsB) ∧
    (t.pwc.power = .start ∧ t.pwc.held = held ∧ t.pwc.cause = cause ∧ t.pwc.wakeFlags = WakeSet.none ∧
      t.pwc.wakeRecord = none ∧ t.pwc.lowScans = 0 ∧ t.pwc.wake = false ∧ t.pwc.agingCount = 0 ∧
      t.pwc.agingSince = none ∧ t.pwc.standbyEntry = false ∧ t.pwc.restartPending = false) ∧
    t.now = s.now ∧ t.pending = s.pending

end Sys2Proof.Machine
end

