-- ==== Sys2Proof/WellFormed.lean ====
section
/-!
DEFINITION. Which command terms spell something that can reach the part.
-/
namespace Sys2Proof

/-- A body fits LEN, 0 to 120 (R165). -/
def bodyFits (body : List Byte) : Bool := body.length ≤ maxBody

/-- A completed chain line frame holds as many payload bytes as its LEN says (R18). -/
def frameComplete (f : ChainFrame) : Bool := f.payload.length = f.len.toNat

/-- Host frames fit their LEN, UNKNOWN_KIND carries a code that is none of the host's, a completed chain frame is
whole, and a linger belongs to an entry id 1 to 255 (R128). -/
def WellFormed (i : Instr) : Bool :=
  match i with
  | .hostFrameValid _ b => bodyFits b
  | .unknownKind k b => !isHostKind k && bodyFits b
  | .chainAnswerComplete f => frameComplete f
  | .strayChainFrame f => frameComplete f
  | .lingerExpiry n => 1 ≤ n && n ≤ 255
  | .identify b | .status b | .census b | .readChain b | .readLoads b | .readFaults b | .display b | .setParam b
  | .readParam b | .writeRule b | .readRule b | .relearn b | .storeConfig b | .standby b | .restart b
  | .clearWake b | .serviceEnter b | .serviceLeave b | .serviceReset b | .commissionBegin b | .commissionConfirm b
  | .readCapture b | .releaseBegin b | .releaseConfirm b | .clearFaults b | .function b | .clusterReport b => bodyFits b
  | .powerOn | .resetLineAssert | .resetLineRelease | .restartReset | .storeLoadDone
  | .hostFrameOversize | .hostFrameBroken | .hostFrameBadCrc | .frameSent | .fwStale | .linkSilent | .scan _
  | .supplyWindowComplete | .zeroWindowComplete _ | .settleExpiry _ | .judgementInstant _ | .standbyScan _
  | .cadenceExpiry _ | .rollSend | .assignSend | .visitStart | .repoll | .chainFrameSent
  | .chainAnswerAbandon | .answerWindowClose | .visitTimeLimit | .pollCycleEnd
  | .standbyPollCycle | .holdoffExpiry | .agingSweep | .reconcileExpiry | .captureWindowExpiry
  | .releaseTimerExpiry | .serviceLineFall | .serviceLineRise | .storeWriteEnd _ => true

end Sys2Proof
end

