-- ==== Sys2Proof/Certificates/Slice0/Obligations.lean ====
section
/-!
DEFINITION. The statements for the provers, in the order of OBLIGATIONS.json: the machine as a whole, the host link, the
host requests and tells, the events of the part, and its arithmetic. `finish`, which ends most of them, is the end of an
event: the statement AnEventEndsWithItsLinesAndItsNotice says what it leaves.
-/
section Statements

open Sys2Proof Sys2Proof.Machine

/-! ### The machine as a whole -/

/-- O1. In place of a fetch: a step takes the command at the front of the queue (the model's own queue, log 26). -/
def Obligations.StepTakesTheFrontCommand : Prop :=
  ∀ (c : Instr) (rest : List Instr) (s : State),
    step { s with pending := c :: rest } = exec c { s with pending := rest }

/-- O2. On an empty queue the part goes on by itself (the model's choice, log 1): the frame in processing is answered,
unless a RESTART has been accepted (R167, R186); else a gap of more than 5 ms breaks the frame being received, or
the next byte on the host's line, once it has ended, is taken by the receiver, and the command it may end a frame
with is run (R166); else a microsecond passes, as it does in reset. The model's own choice here: log 18. -/
def Obligations.AnEmptyQueueTakesTheWaitingFrame : Prop :=
  ∀ s : State, s.pending = [] →
    (s.pwc.held = true → step s = .next { s with now := s.now + 1 }) ∧
    (∀ w, s.hlc.processing = some w → s.pwc.held = false → s.pwc.restartPending = false →
      step s = exec (commandOfFrame w.frame) s) ∧
    (s.pwc.held = false → s.hlc.processing = none ∨ s.pwc.restartPending = true →
      (∀ taken last, s.hlc.receiver = .receiving taken last → last + frameGap < s.now →
        (∀ b, s.hlc.wire.head? = some b → last + frameGap < b.starts) → step s = exec .hostFrameBroken s) ∧
      ((∀ taken last, s.hlc.receiver = .receiving taken last →
          s.now ≤ last + frameGap ∨ ∃ b, s.hlc.wire.head? = some b ∧ b.starts ≤ last + frameGap) →
        (s.hlc.wire = [] → step s = .next { s with now := s.now + 1 }) ∧
        (∀ b rest, s.hlc.wire = b :: rest →
          (s.now < b.starts + hostByteTime → step s = .next { s with now := s.now + 1 }) ∧
          (b.starts + hostByteTime ≤ s.now →
            ∃ u, u = { s with hlc := { s.hlc with wire := rest, receiver := (s.hlc.receiver.take b).1 } } ∧
              ((s.hlc.receiver.take b).2 = none → step s = .next u) ∧
              (∀ i, (s.hlc.receiver.take b).2 = some i → step s = exec i u)))))

/-- O3. The end of an event (R178, R145, R193): the lines follow the state, and in ACTIVE, with no wake in hand, what
has changed goes out in one STATUS-CHANGE that takes in the sets of those still waiting. Nothing else changes. The
model's own choice here: log 21. -/
def Obligations.AnEventEndsWithItsLinesAndItsNotice : Prop :=
  ∀ s : State,
    LinesLaw (finish s) ∧ OnlyChanges [.dsr, .pwc, .hlc] s (finish s) ∧
    (finish s).dsr = { s.dsr with ttfb := ttfbDue s } ∧ (finish s).pwc = { s.pwc with wake := wakeDue s } ∧
    ((s.pwc.power ≠ .active ∨ waking s = true ∨ s.hlc.changes = []) →
      finish s = { s with dsr := { s.dsr with ttfb := ttfbDue s }, pwc := { s.pwc with wake := wakeDue s } }) ∧
    (s.pwc.power = .active → waking s = false → s.hlc.changes ≠ [] →
      (finish s).hlc =
        { s.hlc with sending := (finish s).hlc.sending, queue := (finish s).hlc.queue, changes := [] } ∧
      ∃ ms vs, outgoing (finish s).hlc =
          s.hlc.sending.toList ++ s.hlc.queue.filter (fun r => !r.isStatusChange) ++ [.statusChange ms vs] ∧
        vs = statusValues { s with dsr := { s.dsr with ttfb := ttfbDue s } } ∧
        ∀ m, m ∈ ms ↔ m ∈ s.hlc.changes ∨ ∃ r ∈ s.hlc.queue, m ∈ r.changeSet)

/-- O4. The state after reset meets every law that a step keeps. The model's own choice here: log 4. -/
def Obligations.ResetMeetsTheLaws : Prop :=
  LinesLaw State.reset ∧ SizesLaw State.reset ∧ ListLaw State.reset ∧ ChainLaw State.reset ∧ KeysLaw State.reset.flt ∧
    FlashLaw State.reset.flt ∧ PowerLaw State.reset

/-- O5. TTFB is asserted exactly while the part is ACTIVE, some record is ACTIVE or HEALING, and the mirror is DIVERGED
or the link SILENT; WAKE exactly in STANDBY with an enabled flag set (R145, R193). A standby entry in progress is
part of ACTIVE (10, section 10.4). No frame waits or is in processing in an entry or in STANDBY, and none is in
processing once a RESTART is accepted (R146, R186, R188); outside ACTIVE service mode is off, the reconcile timer is
stopped, every watch is disarmed and no frame that woke the part is at hand (R77, R142, R151, R195). Every step
keeps all of this so. The model's own choice here: log 40. -/
def Obligations.EveryStepKeepsTheLines : Prop :=
  ∀ s t : State, step s = .next t → (LinesLaw s → LinesLaw t) ∧ (PowerLaw s → PowerLaw t)

/-- O6. The Load Table keeps its 28 indices, the rule table its 32 rules, the Fault Table its 32 positions, the store
blocks their places, and the display list at most 8 entries (R44, R63, R104, R126, R181). -/
def Obligations.EveryStepKeepsTheTableSizes : Prop :=
  ∀ s t : State, SizesLaw s → ListLaw s → step s = .next t → SizesLaw t ∧ ListLaw t

/-- O7. The chain table never holds more than six slots, and no unit identity twice (R27); the census's working table
keeps the same law. -/
def Obligations.EveryStepKeepsTheChainTable : Prop :=
  ∀ s t : State, ChainLaw s → step s = .next t → ChainLaw t

/-- O8. The Fault Table never holds two records with the same key (R104), the re-keying of a census among its writers,
which needs the law of the chain table; and a side's fast-flash request is set exactly while an ACTIVE or HEALING
OUTAGE or UNIT-LOST record stands on its turn circuit (R119). Every step keeps both. -/
def Obligations.EveryStepKeepsTheFaultKeys : Prop :=
  ∀ s t : State, step s = .next t →
    (ChainLaw s → KeysLaw s.flt → KeysLaw t.flt) ∧ (FlashLaw s.flt → FlashLaw t.flt)

/-- O9. A frame on the line, after any bytes but SYNC, is received as the frame it was, and the receiver hunts on behind
it (R165, R166). The model's own choice here: log 18. -/
def Obligations.AHostFrameReadsBack : Prop :=
  ∀ (f : HostFrame) (before after : List Byte), f.body.length ≤ maxBody → syncByte ∉ before →
    hunt (before ++ f.bytes ++ after) = some (.hostFrameValid f.kind f.body, after)

/-! ### The host link -/

/-- O10. A kind that is none of the host's, then a length that is not the kind's, is refused, in ACTIVE and in START,
and nothing else changes; in START every other host record but IDENTIFY and STATUS, which are answered, is refused
NOT-READY (R168, R187, R199). The model's own choices here: logs 3, 6. -/
def Obligations.TheLinkTestsComeFirst : Prop :=
  (∀ (f : HostFrame) (s : State), Listening s →
    (isHostKind f.kind = false → exec (.unknownKind f.kind f.body) s = .next (answered [.refused f.kind .unknownKind] s)) ∧
    (isHostKind f.kind = true → lengthGood f = false →
      exec (commandOfFrame f) s = .next (answered [.refused f.kind .length] s))) ∧
  (∀ (f : HostFrame) (s : State), Starting s →
    (isHostKind f.kind = false →
      exec (.unknownKind f.kind f.body) s = .next { s with hlc := s.hlc.enqueue (.refused f.kind .unknownKind) }) ∧
    (isHostKind f.kind = true → lengthGood f = false →
      exec (commandOfFrame f) s = .next { s with hlc := s.hlc.enqueue (.refused f.kind .length) }) ∧
    (isHostKind f.kind = true → lengthGood f = true → f.kind ≠ 0x01 → f.kind ≠ 0x02 →
      exec (commandOfFrame f) s = .next { s with hlc := s.hlc.enqueue (.refused f.kind .notReady) }) ∧
    exec (.identify []) s =
      .next { s with
        hlc := s.hlc.enqueue
          (.identify [0x54, 0x4B, 0x37, 0x34, 0x30] Config.revision Config.storeFormat .start s.svc.mode) } ∧
    exec (.status []) s = .next { s with hlc := (statusReply s).foldl (fun h r => h.enqueue r) s.hlc })

/-- O11. What the Service Controller makes of a host record before its owner (R154, with R153, R155, R161 and R163 for a
part that is not in service mode). The kinds are named by their codes (R199). The model's own choices here: logs 3,
10, 23. -/
def Obligations.RequestsDuringAServiceOperation : Prop :=
  ∀ (f : HostFrame) (s : State), Listening s → isHostKind f.kind = true → lengthGood f = true →
    (s.svc.mode = false → f.kind.toNat ∈ [0x13, 0x14, 0x17, 0x19] →
      exec (commandOfFrame f) s = .next (answered [.refused f.kind .notInService] s)) ∧
    (s.svc.state = .idle → f.kind.toNat ∈ [0x15, 0x18] →
      exec (commandOfFrame f) s = .next (answered [.refused f.kind .sequence] s)) ∧
    (s.svc.state = .writing → f.kind.toNat ∉ [0x01, 0x02, 0x20, 0x21] →
      s.svc.mode = true ∨ f.kind.toNat ∉ [0x13, 0x14, 0x17, 0x19, 0x0D] →
      exec (commandOfFrame f) s = .next (answered [.refused f.kind .busy] s)) ∧
    (∀ k, s.svc.state = .capturing → s.svc.mode = true → s.svc.capture = some k →
      f.kind.toNat ∉ [0x01, 0x02, 0x20, 0x21, 0x12, 0x13, 0x15, 0x16] →
      exec (commandOfFrame f) s =
        .next { answered [.refused f.kind .sequence, .serviceDone .commission (.subject k.target) .sequence none] s with
          svc := { s.svc with
            state := .idle, captureTimer := none, sticky := { s.svc.sticky with sequence := true } } }) ∧
    (∀ r, s.svc.state = .releasePending → s.svc.mode = true → s.svc.release = some r →
      f.kind.toNat ∉ [0x01, 0x02, 0x20, 0x21, 0x12, 0x13, 0x18] →
      exec (commandOfFrame f) s =
        .next { answered [.refused f.kind .sequence, .serviceDone .release (.index r.index) .sequence none] s with
          svc := { s.svc with state := .idle, release := none, sticky := { s.svc.sticky with sequence := true } } })

/-- O12. A valid frame that meets no other is taken for processing at once, and its processing then is what the whole
record is to a part that listens (R167, R172; log 3). The model's own choice here: log 3. -/
def Obligations.AFrameWaitsAndIsThenProcessed : Prop :=
  ∀ (f : HostFrame) (s : State), Listening s →
    ∃ t, exec (.hostFrameValid f.kind f.body) s = .next t ∧
      t = { s with hlc := { s.hlc with
        silence := some (s.now + silencePeriod)
        processing := some { frame := f, cancelled := false, woke := false } } } ∧
      exec (commandOfFrame f) t = exec (commandOfFrame f) s

/-- O13. A valid frame behind the one in processing waits in the buffer, and is taken when the processing in hand ends;
one behind a waiting frame is an OVERRUN; each still restarts the silence timer (R167, R172). One that waits behind
an accepted STANDBY request cancels its entry as it is taken (R188; log 40). One that ends SILENT reports the link
(R172, R177); one that completes in a standby entry cancels it, withdraws its waiting LOADS writes and is refused
BUSY whatever its kind (R190). The model's own choices here: logs 3, 40. -/
def Obligations.AValidFrameOverrunsReportsOrCancels : Prop :=
  ∀ (f : HostFrame) (s : State), s.pwc.held = false → s.pwc.power = .active → s.hlc.changes = [] → LinesLaw s →
    (∀ p, s.hlc.processing = some p → s.hlc.buffer = none → s.pwc.standbyEntry = false → s.hlc.silent = false →
      exec (.hostFrameValid f.kind f.body) s =
        .next { s with hlc := { s.hlc with
          silence := some (s.now + silencePeriod), receiver := .hunting
          buffer := some { frame := f, cancelled := false, woke := false } } }) ∧
    (∀ p w, s.hlc.processing = some p → s.hlc.buffer = some w → s.pwc.standbyEntry = false →
      s.hlc.silent = false →
      exec (.hostFrameValid f.kind f.body) s =
        .next { s with hlc := { s.hlc with
          silence := some (s.now + silencePeriod), receiver := .hunting, overrun := min (s.hlc.overrun + 1) 255 } }) ∧
    (∀ w, s.hlc.processing = some { frame := { kind := 0x02, body := [] }, cancelled := false, woke := false } →
      s.hlc.buffer = some w → s.pwc.restartPending = false → s.pwc.standbyEntry = false →
      exec (.status []) s =
        .next { s with
          hlc := (statusReply s).foldl (fun h r => h.enqueue r)
            { s.hlc with processing := some w, buffer := none } }) ∧
    (∀ w, s.hlc.processing = some { frame := { kind := 0x0E, body := [] }, cancelled := false, woke := false } →
      s.hlc.buffer = some w → s.pwc.restartPending = false → s.pwc.standbyEntry = false → s.svc.mode = false →
      s.svc.state = .idle →
      ∃ t, exec (.standby []) s = .next t ∧ t.pwc = s.pwc ∧ replies t.hlc = replies s.hlc ++ [.ok 0x0E] ∧
        t.hlc.processing = some { w with cancelled := true } ∧ t.hlc.buffer = none ∧
        .loadsA ∉ t.stc.queue ∧ .loadsB ∉ t.stc.queue ∧ OnlyChanges [.clc, .ldt, .svc, .hlc, .stc] s t) ∧
    (s.hlc.processing = none → s.hlc.buffer = none → s.pwc.standbyEntry = false → s.pwc.restartPending = false →
      s.hlc.silent = true →
      exec (.hostFrameValid f.kind f.body) s =
        .next (finish { s with hlc := { s.hlc with
          silent := false, silence := some (s.now + silencePeriod), changes := [.link], receiver := .hunting
          processing := some { frame := f, cancelled := false, woke := false } } })) ∧
    (Free s.hlc → s.pwc.standbyEntry = true → s.hlc.silent = false → s.pwc.restartPending = false →
      exec (commandOfFrame f) s =
        .next { answered [.refused f.kind .busy] s with
          pwc := { s.pwc with standbyEntry := false }
          stc := { s.stc with queue := s.stc.queue.filter fun b => b != .loadsA && b != .loadsB } })

/-- O14. A valid frame of any kind wakes the part from STANDBY (R195): ACTIVE with WAKE negated, the word stale when its
age has reached 500 ms (R171), every circuit settling from this moment or WAITING (R16), the timers running on and a
SILENT link NORMAL (R133, R172, R191), and the frame taken. When the frame has been processed, here a refused one,
the list and a STATUS-CHANGE go out, the mirror is PENDING and a census runs. The model's own choices here: logs 3,
21, 25, 28. -/
def Obligations.AValidFrameWakesThePart : Prop :=
  ∀ (f : HostFrame) (s : State), s.pwc.held = false → s.pwc.restartPending = false → s.pwc.power = .standby →
    s.pwc.standbyEntry = false → s.hlc.processing = none → s.hlc.buffer = none →
    (∃ t stale changes, exec (.hostFrameValid f.kind f.body) s = .next t ∧
      stale = (s.hlc.stale || decide (s.hlc.lastTell + freshPeriod ≤ s.now)) ∧
      t.pwc = { s.pwc with power := .active, wake := false, agingSince := some s.now } ∧
      changes = (if stale && !s.hlc.stale then addMatter .fwStale s.hlc.changes else s.hlc.changes) ∧
      t.hlc = { s.hlc with
        stale := stale, silent := false, silence := some (s.now + silencePeriod), receiver := .hunting
        processing := some { frame := f, cancelled := false, woke := true }
        changes := if s.hlc.silent then addMatter .link changes else changes } ∧
      t.dsr = { s.dsr with list := s.dsr.list.map (resumeLinger s.now), ttfb := ttfbDue t } ∧
      t.sfe.nextScan = s.now ∧ t.sfe.supplyWindow = none ∧
      (∀ c, (t.sfe.circuits.get c).zero = (s.sfe.circuits.get c).zero ∧
        (t.sfe.circuits.get c).window = none ∧
        (stale = true → (t.sfe.circuits.get c).phase = .waiting ∧ (t.sfe.circuits.get c).settleTimer = none ∧
          (t.sfe.circuits.get c).settleEnd = none) ∧
        (stale = false → 0 < s.params.settle.get c →
          (t.sfe.circuits.get c).phase = (if s.hlc.word.getLsbD c.val then Phase.onSettling else Phase.offSettling) ∧
          (t.sfe.circuits.get c).settleTimer = some (s.now + ms (s.params.settle.get c)) ∧
          (t.sfe.circuits.get c).settleEnd = none) ∧
        (stale = false → s.params.settle.get c = 0 → (t.sfe.circuits.get c).settleTimer = none ∧
          (s.hlc.word.getLsbD c.val = true → (t.sfe.circuits.get c).phase = .onSettled ∧
            (t.sfe.circuits.get c).settleEnd = some s.now ∧ (t.sfe.circuits.get c).nextStart = some s.now) ∧
          (s.hlc.word.getLsbD c.val = false → (t.sfe.circuits.get c).phase = .offSettled ∧
            (t.sfe.circuits.get c).settleEnd = none))) ∧
      (stale = false → t.jge.watches = s.jge.watches.mapAt (evaluateWatch s)) ∧
      t.clc.table = s.clc.table ∧ t.clc.census = s.clc.census ∧ t.clc.cycle.isSome = true ∧
      OnlyChanges [.sfe, .clc, .jge, .dsr, .hlc, .pwc] s t) ∧
    (isHostKind f.kind = false → s.clc.census = none → s.svc.state ≠ .capturing →
      ∃ t pre cs vs, exec (.unknownKind f.kind f.body) s = .next t ∧
        outgoing t.hlc = pre ++ [.snapshot t.dsr.list t.dsr.overflow (telltales t.dsr.list), .statusChange cs vs] ∧
        replies t.hlc = replies s.hlc ++ [.refused f.kind .unknownKind] ∧
        t.hlc.processing = none ∧ t.hlc.buffer = none ∧ t.hlc.changes = [] ∧ t.pwc.power = .active ∧
        t.dsr.list = s.dsr.list.map (resumeLinger s.now) ∧ t.dsr.mirror = .pending ∧
        t.dsr.reconcile = some (s.now + ms s.params.reconcile) ∧ t.clc.census = some emptyRun ∧
        t.clc.table = s.clc.table ∧ OnlyChanges [.sfe, .clc, .jge, .dsr, .hlc, .pwc] s t)

/-- O15. The receiver hunts for SYNC; within a frame a byte without its stop bit breaks it, and any other byte joins it
and may end it (R166). The three endings of a bad frame each raise their counter by one, saturating at 255, the
receiver hunts again, and nothing else changes (R166). When the frame being sent ends, the first of the queue starts
at once (R169). The model's own choice here: log 18. -/
def Obligations.BadFramesAreCountedAndSentOnesFollowed : Prop :=
  (∀ s : State, s.pwc.held = false →
    exec .hostFrameOversize s =
      .next (finish { s with hlc := { s.hlc with receiver := .hunting, oversize := min (s.hlc.oversize + 1) 255 } }) ∧
    exec .hostFrameBroken s =
      .next (finish { s with hlc := { s.hlc with receiver := .hunting, broken := min (s.hlc.broken + 1) 255 } }) ∧
    exec .hostFrameBadCrc s =
      .next (finish { s with hlc := { s.hlc with receiver := .hunting, badCrc := min (s.hlc.badCrc + 1) 255 } }) ∧
    exec .frameSent s =
      .next (finish { s with hlc := { s.hlc with sending := s.hlc.queue.head?, queue := s.hlc.queue.tail } })) ∧
  (∀ (b : RxByte) (taken : List Byte) (last : Nat),
    (b.stop = true → b.value = 0xC5 → Receiver.hunting.take b = (.receiving [] (b.starts + hostByteTime), none)) ∧
    (b.stop = false ∨ b.value ≠ 0xC5 → Receiver.hunting.take b = (.hunting, none)) ∧
    (b.stop = false → (Receiver.receiving taken last).take b = (.hunting, some .hostFrameBroken)) ∧
    (b.stop = true → taken = [] → 120 < b.value.toNat →
      (Receiver.receiving taken last).take b = (.hunting, some .hostFrameOversize)) ∧
    (∀ (len kind : Byte) (body : List Byte) (hi : Byte), b.stop = true → len.toNat ≤ 120 → body.length = len.toNat →
      taken = len :: kind :: body ++ [hi] →
      (Receiver.receiving taken last).take b =
        (.hunting, some (if crc16 (len :: kind :: body) = hi ++ b.value then .hostFrameValid kind body
          else .hostFrameBadCrc))) ∧
    (∀ (len : Byte) (more : List Byte), b.stop = true → len.toNat ≤ 120 → more.length < len.toNat + 3 →
      taken ++ [b.value] = len :: more →
      (Receiver.receiving taken last).take b = (.receiving (taken ++ [b.value]) (b.starts + hostByteTime), none)))

/-- O16. The tell age reaching 500 ms in ACTIVE makes the word stale: settled and settling circuits wait and the watches
disarm (R171, R12, R82). The silence timer reaching 1000 ms makes the link SILENT and names no matter (R172). The
model's own choice here: log 2. -/
def Obligations.TheTwoTimersOfTheLink : Prop :=
  ∀ s : State, s.pwc.held = false → s.pwc.power = .active →
    (s.hlc.stale = false →
      ∃ u, exec .fwStale s = .next (finish u) ∧ u.now = max s.now (s.hlc.lastTell + freshPeriod) ∧
        u.hlc = { s.hlc with stale := true, changes := addMatter .fwStale s.hlc.changes } ∧
        u.sfe = { s.sfe with circuits := u.sfe.circuits } ∧ u.jge = { s.jge with watches := u.jge.watches } ∧
        (∀ c, u.jge.watches.get c = { s.jge.watches.get c with armed := none } ∧
          u.sfe.circuits.get c =
            (if (s.sfe.circuits.get c).phase ∈ [.offSettling, .offSettled, .onSettling, .onSettled] then
              { s.sfe.circuits.get c with
                phase := .waiting, settleTimer := none, window := none, done := none, nextStart := none
                settleEnd := none }
            else s.sfe.circuits.get c)) ∧
        OnlyChanges [.now, .sfe, .jge, .hlc] s u) ∧
    (∀ d, s.hlc.silence = some d →
      exec .linkSilent s =
        .next (finish { s with now := max s.now d, hlc := { s.hlc with silent := true, silence := none } }))

/-! ### Host requests and tells -/

/-- O17. IDENTIFY and STATUS are answered in every service state, READ-CHAIN and READ-CAPTURE where R154 passes them on,
each with its content at one moment, and nothing else changes (R42, R164, R175, R176). The contents are 272 bytes,
12 and 70 for each slot, and 20 and 16 for each capture record, cut into parts of at most 118 content bytes that
join to the content again, each behind its part number and the part count; those of STATUS have LEN 120, 120 and 38
(R200). The model's own choices here: logs 6, 7. -/
def Obligations.WholeReadsAnswer : Prop :=
  (∀ s : State, Listening s →
    exec (.identify []) s =
      .next (answered [.identify [0x54, 0x4B, 0x37, 0x34, 0x30] Config.revision Config.storeFormat .active s.svc.mode]
        s) ∧
    exec (.status []) s = .next (answered (statusReply s) s) ∧
    (statusReply s).map (fun r => r.body.length) = [120, 120, 38] ∧
    (s.svc.state = .idle →
      exec (.readChain []) s = .next (answered ((partNumbers (partCount (12 + 70 * s.clc.table.length))).map fun k =>
        .chainPart k (partCount (12 + 70 * s.clc.table.length)) (partContent (chainContent (chainReport s)) k)) s)) ∧
    (s.svc.state = .idle ∨ s.svc.state = .capturing →
      ∃ n, n = 20 + 16 * s.svc.capture.elim 0 (·.records.length) ∧
        exec (.readCapture []) s = .next (answered ((partNumbers (partCount n)).map fun k =>
          .capturePart k (partCount n) (partContent (captureContent (captureReport s)) k)) s))) ∧
  (∀ s : State, (statusContent s).length = 272 ∧
    (chainContent (chainReport s)).length = 12 + 70 * s.clc.table.length ∧
    (captureContent (captureReport s)).length = 20 + 16 * s.svc.capture.elim 0 (·.records.length)) ∧
  ∀ content : List Byte,
    ((partNumbers (partCount content.length)).map (partContent content)).flatten = content ∧
    (∀ k, (partContent content k).length ≤ 118) ∧
    ∀ k n : Nat,
      (TxRecord.statusPart k n content).body = [BitVec.ofNat 8 k, BitVec.ofNat 8 n] ++ content ∧
      (TxRecord.chainPart k n content).body = [BitVec.ofNat 8 k, BitVec.ofNat 8 n] ++ content ∧
      (TxRecord.capturePart k n content).body = [BitVec.ofNat 8 k, BitVec.ofNat 8 n] ++ content

/-- O18. READ-LOADS, READ-FAULTS, READ-PARAM and READ-RULE answer the one place they name, refuse RANGE outside it, and
READ-LOADS is BUSY while the block of its index is written; nothing else changes (R60, R121, R174, R74). The model's
own choice here: log 6. -/
def Obligations.IndexedReadsAnswer : Prop :=
  ∀ (a b : Byte) (s : State), Listening s → s.svc.state = .idle →
    exec (.readLoads [a]) s = .next (answered [
      if 27 < a.toNat then .refused 0x05 .range
      else if s.stc.writing = some (if a.toNat < 12 then .loadsA else .loadsB) then .refused 0x05 .busy
      else .loads (entryCount s.ldt) ((entryAt s.ldt a.toNat).map (entryReport s.params))] s) ∧
    exec (.readFaults [a]) s = .next (answered [
      if 31 < a.toNat then .refused 0x06 .range
      else .faults (recordCount s.flt) s.flt.activation s.flt.saturated s.flt.fastLeft s.flt.fastRight
        (recordAt s.flt a.toNat)] s) ∧
    exec (.readParam [a, b]) s = .next (answered [
      match paramValue s.params a.toNat b.toNat with
      | none => .refused 0x09 .range
      | some v => .readParam a.toNat b.toNat v
          (paramValue (if s.stc.config.good paramsBytes then s.stc.config.content
            else Params.default) a.toNat b.toNat != some v)] s) ∧
    exec (.readRule [a]) s = .next (answered [
      if 31 < a.toNat then .refused 0x0B .range
      else .readRule a.toNat (ruleAt s.jge.rules a.toNat) (roleOf s.jge.rules a.toNat)
        (if isHead s.jge.rules a.toNat then some (setReport s.jge.rules s.hlc.word a.toNat) else none)] s)

/-- O19. DISPLAY is answered, and a snapshot of the list as it stands goes out last but for a STATUS-CHANGE, restarts
the reconcile timer and makes the mirror PENDING; entries and records stay (R138, R141). -/
def Obligations.DisplayRepliesAndSendsTheList : Prop :=
  ∀ s : State, Listening s → s.svc.state = .idle →
    ∃ t pre, exec (.display []) s = .next t ∧
      replies t.hlc = replies s.hlc ++ [.display (displayReport s)] ∧
      (outgoing t.hlc).filter (fun r => !r.isStatusChange) =
        pre ++ [.snapshot s.dsr.list s.dsr.overflow (telltales s.dsr.list)] ∧
      t.dsr = { s.dsr with
        mirror := .pending, reconcile := some (s.now + ms s.params.reconcile), ttfb := ttfbDue t } ∧
      Spoke s t ∧ OnlyChanges [.dsr, .hlc] s t

/-- O20. SET-PARAM is refused RANGE where no parameter takes the value; otherwise the value stored is replied, with
whether it differs from the one written, and takes effect: a changed learn count ends every learning run (R57), a
severity re-evaluates the list (R124), and any other write changes the parameters alone (R173). -/
def Obligations.SetParamStoresAndReplies : Prop :=
  ∀ (a b h l : Byte) (s : State), Listening s → s.svc.state = .idle →
    (paramStore s.params a.toNat b.toNat (h.toNat * 256 + l.toNat) = none →
      exec (.setParam [a, b, h, l]) s = .next (answered [.refused 0x08 .range] s)) ∧
    (∀ p v, paramStore s.params a.toNat b.toNat (h.toNat * 256 + l.toNat) = some p →
      paramValue p a.toNat b.toNat = some v →
      (a.toNat ≠ 6 → a.toNat ≠ 18 →
        exec (.setParam [a, b, h, l]) s =
          .next { answered [.setParam a.toNat b.toNat v (v != h.toNat * 256 + l.toNat)] s with params := p }) ∧
      (a.toNat = 18 →
        exec (.setParam [a, b, h, l]) s =
          .next { answered [.setParam a.toNat b.toNat v (v != h.toNat * 256 + l.toNat)] s with
            params := p
            ldt := if p.learnCount = s.params.learnCount then s.ldt else endAllRuns s.ldt }) ∧
      (a.toNat = 6 →
        ∃ t, exec (.setParam [a, b, h, l]) s = .next t ∧
          replies t.hlc = replies s.hlc ++ [.setParam a.toNat b.toNat v (v != h.toNat * 256 + l.toNat)] ∧
          t.params = p ∧ t.dsr.list = (rebuildList p s.flt s.dsr).2.list ∧
          recordContents t.flt = recordContents s.flt ∧ Spoke s t ∧
          OnlyChanges [.params, .flt, .dsr, .hlc] s t))

/-- O21. What a parameter stores: a number is clamped to the nearer end of its range, W down to the next lower allowed
value, a named value is taken or refused, and every other parameter keeps its value (R173, R4). An id that names no
parameter and, for a circuit's parameter, a circuit above 7 are refused; from id 16 on the circuit byte is ignored
(R173, R174). -/
def Obligations.ParametersStoreTheirRange : Prop :=
  ∀ (p : Params) (c : Circuit) (id value : Nat),
    (∀ lo hi, (id, lo, hi) ∈ [(1, 1000, 20000), (2, 0, 500), (3, 10, 1000), (4, 10, 500), (5, 50, 1000), (6, 1, 7),
        (17, 50, 1000), (18, 1, 8), (19, 1, 15), (20, 1, 31), (21, 5, 300), (22, 500, 10000)] →
      ∃ q, paramStore p id c.val value = some q ∧ paramValue q id c.val = some (max lo (min hi value))) ∧
    (∃ q, paramStore p 16 c.val value = some q ∧ q.window ∈ [1, 2, 4, 8, 16] ∧
      (value < 1 → q.window = 1) ∧ (1 ≤ value → q.window ≤ value ∧ (value < 2 * q.window ∨ q.window = 16))) ∧
    (paramStore p 7 c.val value =
      if value = 0 then some { p with legacyClass := p.legacyClass.set c .filament }
      else if value = 1 then some { p with legacyClass := p.legacyClass.set c .regulated }
      else none) ∧
    ((∃ q, paramStore p 23 c.val value = some q ∧ wakeBits q.wakeMask = value) ↔ value ≤ 7) ∧
    (∀ q id' n, paramStore p id c.val value = some q → id' ≠ id → paramValue q id' n = paramValue p id' n) ∧
    (∀ q n, paramStore p id c.val value = some q → id ≤ 7 → n ≠ c.val → paramValue q id n = paramValue p id n) ∧
    (∀ n : Nat, id ∉ [1, 2, 3, 4, 5, 6, 7, 16, 17, 18, 19, 20, 21, 22, 23] →
      paramStore p id n value = none ∧ paramValue p id n = none) ∧
    (∀ n : Nat, id ≤ 7 → 7 < n → paramStore p id n value = none ∧ paramValue p id n = none) ∧
    (∀ n m : Nat, 16 ≤ id → paramStore p id n value = paramStore p id m value ∧ paramValue p id n = paramValue p id m)

/-- O22. A WRITE-RULE that names a rule or head above 31, or a sense or action without a name, is refused RANGE; any
other is stored with its adjustments (R72), replied as stored, marked when a field differs, and, while the word is
fresh, every watch is evaluated against the new table. -/
def Obligations.WriteRuleStoresTheAdjustedRule : Prop :=
  ∀ (body : List Byte) (s : State), Listening s → s.svc.state = .idle → body.length = 16 →
    (31 < (byteAt body 0).toNat ∨ 31 < (byteAt body 8).toNat ∨ 1 < (byteAt body 2).toNat ∨
        3 < (byteAt body 13).toNat →
      exec (.writeRule body) s = .next (answered [.refused 0x0A .range] s)) ∧
    ((byteAt body 0).toNat ≤ 31 → (byteAt body 8).toNat ≤ 31 → (byteAt body 2).toNat ≤ 1 →
        (byteAt body 13).toNat ≤ 3 →
      ∃ n r q, ruleOf body = some (n, r) ∧ n = (byteAt body 0).toNat ∧
        q = { r with value := r.value &&& r.mask, param := q.param } ∧
        (r.action = .widen → q.param = max 2 (min 8 r.param)) ∧
        (r.action = .cadence → q.param = (max 200 (min 5000 r.param) + 5) / 10 * 10) ∧
        (r.action = .judge ∨ r.action = .hold → q.param = 0) ∧
        ∃ t, exec (.writeRule body) s = .next t ∧
          t = { answered [.writeRule n q (q != r)] s with
            jge := { s.jge with rules := s.jge.rules.set n q, watches := t.jge.watches } } ∧
          (s.hlc.stale = false →
            t.jge.watches = s.jge.watches.mapAt
              (evaluateWatch { s with jge := { s.jge with rules := s.jge.rules.set n q } })))

/-- O23. STORE-CONFIG is answered, also while a block is written with service mode off, and asks for CONFIG and then
RULES: with no write in progress CONFIG begins as it stands, its copy bad until the write ends, and otherwise each
block joins the queue once (R183, R185, R154). The model's own choices here: logs 12, 37. -/
def Obligations.StoreConfigAsksForTwoWrites : Prop :=
  ∀ s : State, Listening s → s.svc.state = .idle ∨ s.svc.mode = false →
    (s.stc.writing = none →
      ∃ c, c.content = s.params ∧ c.good paramsBytes = false ∧
        exec (.storeConfig []) s =
          .next { answered [.ok 0x0D] s with
            svc := { s.svc with write := s.svc.write.map fun w => { w with begun := w.begun || w.block = .config } }
            stc := { s.stc with
              config := c
              writing := some .config
              queue := if .rules ∈ s.stc.queue then s.stc.queue else s.stc.queue ++ [.rules] } }) ∧
    (∀ b, s.stc.writing = some b →
      exec (.storeConfig []) s =
        .next { answered [.ok 0x0D] s with
          stc := { s.stc with
            queue := s.stc.queue ++ [.config, .rules].filter fun x => decide (x ∉ s.stc.queue) } })

/-- O24. STANDBY is refused STATE in service mode; accepted, it is answered, aborts a running census with the table, the
number and the coupling flag kept, ends every learning run, and asks for LOADS-A and LOADS-B (R188, R30, R57, R61).
The model's own choices here: logs 12, 14, 27. -/
def Obligations.StandbyBeginsAnEntry : Prop :=
  ∀ s : State, Listening s → s.svc.state = .idle →
    (s.svc.mode = true → exec (.standby []) s = .next (answered [.refused 0x0E .state] s)) ∧
    (s.svc.mode = false →
      ∃ t, exec (.standby []) s = .next t ∧ replies t.hlc = replies s.hlc ++ [.ok 0x0E] ∧ Spoke s t ∧
        t.pwc = { s.pwc with standbyEntry := true } ∧ t.ldt = endAllRuns s.ldt ∧
        (s.clc.census = none → t.clc = s.clc) ∧
        (∀ run, s.clc.census = some run → t.clc.census = none ∧ t.clc.table = s.clc.table ∧
          t.clc.censusNumber = s.clc.censusNumber ∧ t.clc.coupling = s.clc.coupling ∧ t.clc.holdoff = s.clc.holdoff ∧
          t.clc.line = .idle ∧ t.clc.task = none ∧ t.clc.cycleCounter = s.clc.cycleCounter ∧
          t.clc.cycle = some { pos := 0, start := s.now, ended := none, closing := false }) ∧
        (s.stc.writing = none →
          t.stc.writing = some .loadsA ∧ t.stc.good .loadsA = false ∧
          t.stc.loadsA.content = (s.ldt.entries.take 12).map (fun o => o.map storeEntry) ∧
          t.stc.queue = if .loadsB ∈ s.stc.queue then s.stc.queue else s.stc.queue ++ [.loadsB]) ∧
        (∀ b, s.stc.writing = some b →
          t.stc = { s.stc with
            queue := s.stc.queue ++ [.loadsA, .loadsB].filter fun x => decide (x ∉ s.stc.queue) }) ∧
        t.svc = { s.svc with write := t.svc.write } ∧ OnlyChanges [.clc, .ldt, .svc, .hlc, .stc, .pwc] s t)

/-- O25. RESTART is refused BUSY while a write is in progress or waiting; accepted, it is answered, the reset waits for
that reply to be sent, and until then a frame only arrives (R186). Once it has been sent the reset is taken. The
model's own choices here: logs 3, 22. -/
def Obligations.RestartWaitsForItsReply : Prop :=
  ∀ s : State,
    (Listening s → s.svc.state = .idle → (s.stc.writing ≠ none ∨ s.stc.queue ≠ []) →
      exec (.restart []) s = .next (answered [.refused 0x0F .busy] s)) ∧
    (Listening s → s.svc.state = .idle → s.stc.writing = none → s.stc.queue = [] →
      ∃ t, exec (.restart []) s = .next t ∧
        t = { answered [.ok 0x0F] s with pwc := { s.pwc with restartPending := true } } ∧
        exec .restartReset t = .next t ∧
        ∀ f : HostFrame, exec (commandOfFrame f) t =
          .next { t with hlc := { t.hlc with
            buffer := some { frame := f, cancelled := false, woke := false } } }) ∧
    (s.pwc.held = false → s.pwc.restartPending = true → (.ok 0x0F) ∉ outgoing s.hlc →
      ∃ t, exec .restartReset s = .next t ∧ AfterReset .restart false s t)

/-- O26. CLEAR-WAKE refuses a bit that names no cause RANGE; otherwise it clears the named flags, empties the wake
record when no flag remains, and replies the flags still set, with the record as it stood before the clear (R194).
The model's own choice here: log 36. -/
def Obligations.ClearWakeClearsTheNamedFlags : Prop :=
  ∀ (a : Byte) (s : State), Listening s → s.svc.state = .idle →
    (7 < a.toNat → exec (.clearWake [a]) s = .next (answered [.refused 0x10 .range] s)) ∧
    (a.toNat ≤ 7 →
      ∃ flags,
        flags = { fault := s.pwc.wakeFlags.fault && !a.getLsbD 0
                  composition := s.pwc.wakeFlags.composition && !a.getLsbD 1
                  supply := s.pwc.wakeFlags.supply && !a.getLsbD 2 : WakeSet } ∧
        exec (.clearWake [a]) s =
          .next { answered [.clearWake flags s.pwc.wakeRecord] s with
            pwc := { s.pwc with
              wakeFlags := flags
              wakeRecord := if flags = WakeSet.none then none else s.pwc.wakeRecord } })

/-- O27. CENSUS is refused BUSY while one runs; otherwise it is answered and the census starts: the number steps, never
to 0, the visit and cycle are cut short, the hold-off and the pending trigger go, a number of 1 drives the line
break, a frame of the part on the line runs to its end, and the first ROLL is due (R19, R21, R24, R25, R35). The
model's own choices here: logs 14, 27, 30. -/
def Obligations.CensusRequestStartsACensus : Prop :=
  ∀ s : State, Listening s → s.svc.state = .idle →
    (∀ run, s.clc.census = some run → exec (.census []) s = .next (answered [.refused 0x03 .busy] s)) ∧
    (s.clc.census = none →
      ∃ n, n = (if 255 ≤ s.clc.censusNumber then 1 else s.clc.censusNumber + 1) ∧
        exec (.census []) s =
          .next { answered [.ok 0x03] s with
            clc := { s.clc with
              census := some { table := [], answered := 0, silent := 0, duplicates := 0, beyond := 0 }
              censusNumber := n, holdoff := none, pendingTrigger := false, task := some .roll, line := .idle
              visit := none, cycle := none
              cycleCounter := if s.clc.cycle.isSome then (s.clc.cycleCounter + 1) % 8 else s.clc.cycleCounter
              lineBreak := if n = 1 then some (s.now + lineBreakTime) else none
              idleFrom := if n = 1 then s.now + lineBreakTime
                else
                  match s.clc.line with
                  | .sending _ ends => max s.clc.idleFrom (max s.now ends)
                  | .window _ _ => max s.clc.idleFrom s.now
                  | .idle => if s.clc.lineBreak = none then s.clc.idleFrom else min s.clc.idleFrom s.now } })

/-- O28. RELEARN's refusals in their order, and its effect: the named circuits of the serving entry return to UNKNOWN,
every other entry and circuit stays, and the LAMP-family records of the subject on those circuits go, with its
RESOLVED LAMP-family entries on them (R58, R59, R115, R135). -/
def Obligations.RelearnForgetsTheNamedCircuits : Prop :=
  ∀ (a b : Byte) (s : State), Listening s → s.svc.state = .idle →
    (subjectOf a = none → exec (.relearn [a, b]) s = .next (answered [.refused 0x0C .range] s)) ∧
    (∀ subject, subjectOf a = some subject →
      (s.clc.census.isSome = true → exec (.relearn [a, b]) s = .next (answered [.refused 0x0C .busy] s)) ∧
      (s.clc.census = none → (servingIndex s.ldt subject).bind (entryAt s.ldt) = none →
        exec (.relearn [a, b]) s = .next (answered [.refused 0x0C .state] s)) ∧
      (∀ i e, s.clc.census = none → servingIndex s.ldt subject = some i → entryAt s.ldt i = some e →
        (e.lock = .commissioned → exec (.relearn [a, b]) s = .next (answered [.refused 0x0C .locked] s)) ∧
        (e.lock = .opened →
          ∃ t e', exec (.relearn [a, b]) s = .next t ∧
            replies t.hlc = replies s.hlc ++ [.relearn i b] ∧ Spoke s t ∧
            t.ldt = { s.ldt with entries := s.ldt.entries.set i (some e') } ∧ e' = { e with cells := e'.cells } ∧
            (∀ c : Circuit, e'.cells.get c = if b.getLsbD c.val then LoadCell.unknown else e.cells.get c) ∧
            recordContents t.flt =
              (recordContents s.flt).map (fun o => o.filter fun r => !isLampOf subject b r) ∧
            (∃ f mid, t.dsr.list = (rebuildList s.params f { s.dsr with list := mid }).2.list ∧
              recordContents f = recordContents t.flt ∧
              mid.filter (fun e => decide (e.state = .resolved)) =
                s.dsr.list.filter fun e =>
                  decide (e.state = .resolved ∧ ¬ (e.kind ∈ [Kind.outage, .unitLost, .overload] ∧
                    e.subject = some subject ∧ e.circuit.any (fun c => b.getLsbD c.val) = true))) ∧
            OnlyChanges [.ldt, .flt, .dsr, .hlc] s t)))

/-- O29. SERVICE-ENTER with the line high turns service mode on, and is refused PIN with it low; SERVICE-LEAVE turns it
off and ends a capture ABORTED; SERVICE-RESET in service mode clears every error and discards what an operation
held, with no SERVICE-DONE (R151, R152, R153). The model's own choice here: log 23. -/
def Obligations.ServiceModeRequests : Prop :=
  ∀ s : State, Listening s →
    (s.svc.state = .idle → s.svc.line = true →
      exec (.serviceEnter []) s = .next { answered [.ok 0x11] s with svc := { s.svc with mode := true } }) ∧
    (s.svc.state = .idle → s.svc.line = false →
      exec (.serviceEnter []) s = .next (answered [.refused 0x11 .pin] s)) ∧
    (s.svc.state = .idle →
      exec (.serviceLeave []) s = .next { answered [.ok 0x12] s with svc := { s.svc with mode := false } }) ∧
    (∀ k, s.svc.state = .capturing → s.svc.capture = some k →
      exec (.serviceLeave []) s =
        .next { answered [.ok 0x12, .serviceDone .commission (.subject k.target) .aborted none] s with
          svc := { s.svc with
            mode := false, state := .idle, captureTimer := none
            sticky := { s.svc.sticky with aborted := true } } }) ∧
    (∀ r, s.svc.state = .releasePending → s.svc.release = some r →
      exec (.serviceLeave []) s =
        .next { answered [.ok 0x12, .serviceDone .release (.index r.index) .aborted none] s with
          svc := { s.svc with
            mode := false, state := .idle, release := none, sticky := { s.svc.sticky with aborted := true } } }) ∧
    (s.svc.mode = true → s.svc.state ≠ .writing →
      exec (.serviceReset []) s =
        .next { answered [.ok 0x13] s with
          svc := { s.svc with
            state := .idle, sticky := Sticky.none, capture := none, captureTimer := none, release := none } })

/-- O30. COMMISSION-BEGIN's tests in their order, and the capture it starts: the target with its identity or identity
count, the index, the set, a WAITING record for each circuit of it, and 120 s (R155). The model's own choices here:
logs 6, 43. -/
def Obligations.CommissionBeginStartsACapture : Prop :=
  ∀ (a b : Byte) (s : State), Listening s → s.svc.state = .idle → s.svc.mode = true →
    (anySticky s.svc.sticky = true →
      exec (.commissionBegin [a, b]) s = .next (answered [.refused 0x14 .errorPending] s)) ∧
    (s.svc.sticky = Sticky.none →
      (subjectOf a = none ∨ b = 0 →
        exec (.commissionBegin [a, b]) s = .next (answered [.refused 0x14 .range] s)) ∧
      (∀ target, subjectOf a = some target → b ≠ 0 →
        (s.clc.census.isSome = true →
          exec (.commissionBegin [a, b]) s = .next (answered [.refused 0x14 .busy] s)) ∧
        (s.clc.census = none → (servingIndex s.ldt target).bind (entryAt s.ldt) = none →
          exec (.commissionBegin [a, b]) s = .next (answered [.refused 0x14 .state] s)) ∧
        (∀ i e, s.clc.census = none → servingIndex s.ldt target = some i → entryAt s.ldt i = some e →
          (∀ n x, target = .slot n → slotOf s n = some x →
            (x.state ≠ .present →
              exec (.commissionBegin [a, b]) s = .next (answered [.refused 0x14 .state] s)) ∧
            (x.state = .present → e.lock = .commissioned →
              exec (.commissionBegin [a, b]) s = .next (answered [.refused 0x14 .locked] s)) ∧
            (x.state = .present → e.lock = .opened →
              (∃ c : Circuit, 1 ≤ x.lamps.get c ∧ b.getLsbD c.val = false) →
              exec (.commissionBegin [a, b]) s = .next (answered [.refused 0x14 .range] s)) ∧
            (x.state = .present → e.lock = .opened →
              (∀ c : Circuit, 1 ≤ x.lamps.get c → b.getLsbD c.val = true) →
              exec (.commissionBegin [a, b]) s =
                .next { answered [.commissionBegin i] s with
                  svc := { s.svc with
                    state := .capturing, captureTimer := some (s.now + captureTime)
                    capture := some
                      { target := target, identity := x.identity, index := i, circuits := b
                        records := (allCircuits.filter fun c => b.getLsbD c.val).map fun c =>
                          { circuit := c, count := 0, first := 0, sumValue := 0, sumVolt := 0
                            captured := none } } } })) ∧
          (∀ n, target = .slot n → slotOf s n = none →
            exec (.commissionBegin [a, b]) s = .next (answered [.refused 0x14 .state] s)) ∧
          (target = .remainder → e.lock = .commissioned →
            exec (.commissionBegin [a, b]) s = .next (answered [.refused 0x14 .locked] s)) ∧
          (∀ sig, target = .remainder → e.key = .remainder sig → e.lock = .opened →
            exec (.commissionBegin [a, b]) s =
              .next { answered [.commissionBegin i] s with
                svc := { s.svc with
                  state := .capturing, captureTimer := some (s.now + captureTime)
                  capture := some
                    { target := target, identity := BitVec.ofNat 48 sig.length, index := i, circuits := b
                      records := (allCircuits.filter fun c => b.getLsbD c.val).map fun c =>
                        { circuit := c, count := 0, first := 0, sumValue := 0, sumVolt := 0
                          captured := none } } } }))))

/-- O31. COMMISSION-CONFIRM ends the capture MISMATCH on another echo or identity and INCOMPLETE while a record waits;
otherwise the captured circuits become KNOWN as captured, every other run ends, the entry is COMMISSIONED, and the
block that holds it is asked for, its write beginning or joining the queue once (R158, R159, R183). The model's own
choices here: logs 12, 23. -/
def Obligations.CommissionConfirmWritesOrEnds : Prop :=
  ∀ (a : Byte) (id : List Byte) (k : Capture) (s : State), Listening s → id.length = 6 → s.svc.state = .capturing →
    s.svc.capture = some k →
    (subjectOf a ≠ some k.target ∨ identityAt id 0 ≠ k.identity →
      exec (.commissionConfirm (a :: id)) s =
        .next { answered [.confirm .commission (some .mismatch),
            .serviceDone .commission (.subject k.target) .mismatch none] s with
          svc := { s.svc with
            state := .idle, captureTimer := none, sticky := { s.svc.sticky with mismatch := true } } }) ∧
    (subjectOf a = some k.target → identityAt id 0 = k.identity → (∃ r ∈ k.records, r.captured = none) →
      exec (.commissionConfirm (a :: id)) s =
        .next { answered [.confirm .commission (some .incomplete),
            .serviceDone .commission (.subject k.target) .incomplete none] s with
          svc := { s.svc with
            state := .idle, captureTimer := none, sticky := { s.svc.sticky with incomplete := true } } }) ∧
    (∀ e, subjectOf a = some k.target → identityAt id 0 = k.identity → (∀ r ∈ k.records, r.captured ≠ none) →
      entryAt s.ldt k.index = some e →
      ∃ t e', exec (.commissionConfirm (a :: id)) s = .next t ∧
        t.hlc = (answered [.confirm .commission none] s).hlc ∧
        t.ldt = { s.ldt with entries := s.ldt.entries.set k.index (some e') } ∧
        e' = { e with lock := .commissioned, cells := e'.cells } ∧
        (∀ c : Circuit, (∀ r ∈ k.records, r.circuit ≠ c) → e'.cells.get c = endRun (e.cells.get c)) ∧
        (∀ c : Circuit, ∀ r x, k.records.find? (fun r => r.circuit = c) = some r → r.captured = some x →
          e'.cells.get c =
            { base := { state := .known, cls := x.cls, nominal := x.nominal, vref := x.vref }
              learn := LearningRecord.empty }) ∧
        t.svc = { s.svc with
          state := .writing, captureTimer := none, release := none
          write := some { op := .commission, target := .subject k.target, index := k.index
                          block := if k.index < 12 then .loadsA else .loadsB
                          begun := s.stc.writing.isNone, aborted := false } } ∧
        (s.stc.writing = none → t.stc.writing = some (if k.index < 12 then .loadsA else .loadsB) ∧
          t.stc.queue = s.stc.queue) ∧
        (∀ w, s.stc.writing = some w →
          ∃ b, b = (if k.index < 12 then StoreBlock.loadsA else .loadsB) ∧
            t.stc = { s.stc with queue := if b ∈ s.stc.queue then s.stc.queue else s.stc.queue ++ [b] }) ∧
        OnlyChanges [.ldt, .svc, .hlc, .stc] s t)

/-- O32. RELEASE-BEGIN's tests in their order and the pending release it starts (R161); RELEASE-CONFIRM ends MISMATCH on
another index or identity, and otherwise opens the entry with every circuit UNKNOWN, removes the LAMP-family records
of the subject it serves, and asks for its block, whose write begins or joins the queue once (R162, R115, R183). The
model's own choices here: logs 12, 23. -/
def Obligations.ReleaseBeginAndConfirm : Prop :=
  ∀ (a : Byte) (id : List Byte) (s : State), Listening s → id.length = 6 →
    (s.svc.state = .idle → s.svc.mode = true →
      (anySticky s.svc.sticky = true →
        exec (.releaseBegin [a]) s = .next (answered [.refused 0x17 .errorPending] s)) ∧
      (s.svc.sticky = Sticky.none → 27 < a.toNat →
        exec (.releaseBegin [a]) s = .next (answered [.refused 0x17 .range] s)) ∧
      (s.svc.sticky = Sticky.none → a.toNat ≤ 27 →
        (∀ e, entryAt s.ldt a.toNat = some e → e.lock = .opened) →
        exec (.releaseBegin [a]) s = .next (answered [.refused 0x17 .state] s)) ∧
      (∀ e, s.svc.sticky = Sticky.none → a.toNat ≤ 27 → entryAt s.ldt a.toNat = some e → e.lock = .commissioned →
        exec (.releaseBegin [a]) s =
          .next { answered [.releaseBegin (isRemainder e.key) (releaseIdentity e.key)] s with
            svc := { s.svc with
              state := .releasePending
              release := some { index := a.toNat, identity := releaseIdentity e.key
                                expires := s.now + releaseTime } } })) ∧
    (∀ r, s.svc.state = .releasePending → s.svc.release = some r →
      (a.toNat ≠ r.index ∨ identityAt id 0 ≠ r.identity →
        exec (.releaseConfirm (a :: id)) s =
          .next { answered [.confirm .release (some .mismatch),
              .serviceDone .release (.index r.index) .mismatch none] s with
            svc := { s.svc with
              state := .idle, release := none, sticky := { s.svc.sticky with mismatch := true } } }) ∧
      (∀ e, a.toNat = r.index → identityAt id 0 = r.identity → entryAt s.ldt r.index = some e →
        ∃ t, exec (.releaseConfirm (a :: id)) s = .next t ∧
          replies t.hlc = replies s.hlc ++ [.confirm .release none] ∧ Spoke s t ∧
          t.ldt = { s.ldt with
            entries := s.ldt.entries.set r.index
              (some { e with lock := .opened, cells := PerCircuit.fill LoadCell.unknown }) } ∧
          recordContents t.flt =
            (recordContents s.flt).map (fun o => o.filter fun x =>
              !(servedSubject s.ldt r.index).any fun u => isLampOf u 0xFF x) ∧
          t.svc = { s.svc with
            state := .writing, captureTimer := none, release := none
            write := some { op := .release, target := .index r.index, index := r.index
                            block := if r.index < 12 then .loadsA else .loadsB
                            begun := s.stc.writing.isNone, aborted := false } } ∧
          (s.stc.writing = none → t.stc.writing = some (if r.index < 12 then .loadsA else .loadsB) ∧
            t.stc.queue = s.stc.queue) ∧
          (∀ w, s.stc.writing = some w →
            ∃ b, b = (if r.index < 12 then StoreBlock.loadsA else .loadsB) ∧
              t.stc = { s.stc with queue := if b ∈ s.stc.queue then s.stc.queue else s.stc.queue ++ [b] }) ∧
          OnlyChanges [.ldt, .flt, .dsr, .svc, .hlc, .stc] s t))

/-- O33. CLEAR-FAULTS in service mode replies how many records it removes and removes every record but the NODE-LOST
ones, and every RESOLVED entry; the activation counter stays (R117, R135, R163). -/
def Obligations.ClearFaultsLeavesNodeLost : Prop :=
  ∀ s : State, Listening s → s.svc.state = .idle → s.svc.mode = true →
    ∃ t, exec (.clearFaults []) s = .next t ∧
      replies t.hlc = replies s.hlc ++
        [.clearFaults ((s.flt.records.filterMap id).filter fun r => r.kind != .nodeLost).length] ∧
      Spoke s t ∧
      recordContents t.flt = (recordContents s.flt).map (fun o => o.filter fun r => r.kind = .nodeLost) ∧
      t.flt.activation = s.flt.activation ∧ (∀ e ∈ t.dsr.list, e.state ≠ .resolved) ∧
      OnlyChanges [.flt, .dsr, .hlc] s t

/-- O34. A FUNCTION tell changes the word, the previous word and the tell age and ends staleness (R170). The tell that
ends staleness settles every WAITING circuit by its item (R12); any other gives each changed item's circuit its
edge, in the four phases edges act in. Before that edge a scan taken first at the moment of the tell completes the
window it filled, with its instant or its zero update (R6): `due` are those circuits, o, act, held and j their
offers and judgements, by the word before the tell (R70), and g is the Fault Table behind them. Every watch follows
the CADENCE sets that match the new word (R77); it is loaded as it arms, and, armed, by an OFF-to-ON edge of its
circuit, which also gives a GOOD outcome unless a census runs, VOLTAGE is set or a HOLD set matches (R78, R79, R81);
the tell that ends staleness carries no edge. A COUPLED edge, which the first tell after reset does not carry, sets
the coupling flag and starts a census with an empty working table, whatever the census state (R22, R29), which ends
a capture ABORTED (R157); without one the chain line is as it was. The model's own choices here: logs 9, 35, 41. -/
def Obligations.AFunctionTellChangesTheWord : Prop :=
  ∀ (h l : Byte) (w : FunctionWord) (s : State), Listening s → w = h ++ l →
    ∃ (due on : List Circuit) (o : Circuit → Offer) (act : Circuit → Action × Nat) (held : Circuit → HeldCause)
        (j : Circuit → Judgement) (batch goods : List Verdict) (g : Flt) (t : State),
      exec (.function [h, l]) s = .next t ∧
      due = (allCircuits.filter fun c => !s.hlc.stale && (s.hlc.word.getLsbD c.val != w.getLsbD c.val) &&
        (s.sfe.circuits.get c).done.any fun d => d.2 = s.now + 2000) ∧
      on = (due.filter fun c => (s.sfe.circuits.get c).phase = .onSettled) ∧
      (∀ (c : Circuit) (x : CircuitSense) (win : Window) (d : Nat), x = s.sfe.circuits.get c → x.done = some (win, d) →
        o c = { circuit := c, time := d, mean := (2 * win.sumCurrent + win.len) / (2 * win.len), zero := x.zero
                volts := (2 * win.sumSupply + win.len) / (2 * win.len), saturated := win.saturated
                settleEnd := x.settleEnd, parked := false }) ∧
      (∀ c, act c = chooseAction s.jge.rules s.hlc.word c) ∧
      (∀ c, held c = (if s.clc.census.isSome then HeldCause.census
        else if (o c).volts < 16000 ∨ 32000 < (o c).volts then .voltage
        else if (act c).1 = .hold then .rule else .none)) ∧
      (∀ c, j c = judgement
        { factor := (act c).2, tAbs := s.params.tAbs.get c, tPm := s.params.tPm.get c, tOver := s.params.tOver.get c }
        (o c) (slotViews s (o c)) (remainderView s c)) ∧
      batch = ((on.filter fun c => held c = .none).map fun c => (j c).batch).flatten ∧
      (due = [] → g = s.flt) ∧ (FlashLaw s.flt → FlashLaw g) ∧
      recordContents g = recordContents (applyBatch s.params batch s.flt).1 ∧
      g.activation = (applyBatch s.params batch s.flt).1.activation ∧
      g.saturated = (applyBatch s.params batch s.flt).1.saturated ∧
      t.sfe = { s.sfe with
        circuits := t.sfe.circuits, voltage := t.sfe.voltage, voltageMark := t.sfe.voltageMark } ∧
      t.sfe.voltage = (s.sfe.voltage || on.any fun c => decide ((o c).volts < 16000 ∨ 32000 < (o c).volts)) ∧
      (∀ (c : Circuit) (x y : CircuitSense), x = s.sfe.circuits.get c →
        y = (match x.done with
          | some (win, _) =>
            if c ∈ due ∧ x.phase = .offSettled then
              { x with zero := min ((2 * win.sumCurrent + win.len) / (2 * win.len)) 500
                       leak := decide (500 < (2 * win.sumCurrent + win.len) / (2 * win.len))
                       senseSat := win.saturated }
            else if c ∈ on then { x with senseSat := win.saturated } else x
          | none => x) →
        (s.hlc.stale = true → t.sfe.circuits.get c =
          if x.phase = .waiting then startSettling (w.getLsbD c.val) s.now (s.params.settle.get c) x else x) ∧
        (s.hlc.stale = false → t.sfe.circuits.get c =
          if s.hlc.word.getLsbD c.val ≠ w.getLsbD c.val ∧
              x.phase ∈ [.offSettling, .offSettled, .onSettling, .onSettled] then
            startSettling (w.getLsbD c.val) s.now (s.params.settle.get c) y
          else x)) ∧
      t.jge = { s.jge with watches := t.jge.watches, summaries := t.jge.summaries } ∧
      (∀ c : Circuit, t.jge.summaries.get c =
        if c ∈ on then some
          { time := (o c).time, mean := (o c).mean, zero := (o c).zero, volts := (o c).volts
            saturated := (o c).saturated, parked := false, measured := measured (o c), action := (act c).1
            factor := (act c).2, held := held c
            residual := if held c = .none then some (j c).residual else none
            expectation := if held c = .none then (j c).expectation else none
            pool := if held c = .none then (j c).pool else .absent
            poolSubject := if held c = .none then (j c).subject else none }
        else s.jge.summaries.get c) ∧
      t.ldt = on.foldl (fun acc c =>
        if held c = .none then learnAll s.params (o c) (slotViews s (o c)) (remainderView s c) (j c).residual acc
        else acc) s.ldt ∧
      (∀ (c : Circuit) (x : Watch), x = s.jge.watches.get c →
        (cadencePeriod s.jge.rules w c = none → t.jge.watches.get c = { x with armed := none }) ∧
        (∀ p v, cadencePeriod s.jge.rules w c = some p →
          v = (if (c = 0 ∧ g.fastLeft = true) ∨ (c = 1 ∧ g.fastRight = true) then p / 2 else p) →
          t.jge.watches.get c =
            match x.armed with
            | none => { armed := some { period := p, expires := s.now + ms v }, load := v }
            | some a =>
              if s.hlc.stale = false ∧ s.hlc.word.getLsbD c.val = false ∧ w.getLsbD c.val = true then
                { armed := some { period := p, expires := s.now + ms v }, load := v }
              else { x with armed := some { period := p, expires := a.expires } })) ∧
      goods = ((allCircuits.filter fun c : Circuit =>
          !s.hlc.stale && !s.hlc.word.getLsbD c.val && w.getLsbD c.val && (cadencePeriod s.jge.rules w c).isSome &&
            s.clc.census.isNone && !t.sfe.voltage && !holdMatches s.jge.rules w c).map fun c =>
        { key := .cadence c, kind := none, identity := none, expected := 0, deficit := 0 }) ∧
      recordContents t.flt = recordContents (applyBatch s.params goods g).1 ∧
      t.flt.activation = g.activation ∧ t.flt.saturated = (applyBatch s.params goods g).1.saturated ∧
      (s.hlc.stale = true → recordContents t.flt = recordContents s.flt) ∧
      replies t.hlc = replies s.hlc ++
        (if s.hlc.firstTell = false ∧ s.hlc.word.getLsbD 14 ≠ w.getLsbD 14 ∧ s.svc.state = .capturing then
          [.serviceDone .commission (.subject (s.svc.capture.elim .remainder (·.target))) .aborted none] else []) ∧
      t.hlc = { s.hlc with
        sending := t.hlc.sending, queue := t.hlc.queue, changes := []
        word := w, previous := s.hlc.word, lastTell := s.now, stale := false, firstTell := false
        silence := some (s.now + silencePeriod) } ∧
      (∃ v, v = on.foldl (fun acc c =>
          if held c = .none then captureAll s.params (o c) (slotViews s (o c)) (remainderView s c) (j c).residual acc
          else acc) s.svc ∧
        (s.hlc.firstTell = true ∨ s.hlc.word.getLsbD 14 = w.getLsbD 14 → t.clc = s.clc ∧ t.svc = v) ∧
        (s.hlc.firstTell = false → s.hlc.word.getLsbD 14 ≠ w.getLsbD 14 →
          t.clc.coupling = true ∧ t.clc.census = some emptyRun ∧ t.clc.task = some .roll ∧
          t.clc.censusNumber = (if 255 ≤ s.clc.censusNumber then 1 else s.clc.censusNumber + 1) ∧
          t.clc.table = s.clc.table ∧ t.svc = captureAborted v)) ∧
      OnlyChanges [.sfe, .jge, .clc, .flt, .ldt, .dsr, .hlc, .svc] s t

/-- O35. An accepted CLUSTER-REPORT replaces the mirror content and is matched against the list as it stood: a match
makes the mirror IN-STEP and stops the timer, a mismatch while IN-STEP sends the list again and makes it PENDING,
and any other mismatch changes nothing more (R140, R141). Its acknowledgements are then taken in the order of its
triples, and one re-evaluation follows them (R140, R143). An acknowledgement acts on the entry of its id by the
entry's state and version, or raises the stale count (R143, R144). The model's own choice here: log 34. -/
def Obligations.AClusterReportIsMatched : Prop :=
  ∀ (body : List Byte) (s : State), Listening s → lengthGood { kind := 0x21, body := body } = true →
    (∃ u, exec (.clusterReport body) s =
        .next (finish (reevaluate (u.dsr.list.map fun e => (e.id, e.version, e.sequence), u.dsr.overflow)
          ((reportContent body).triples.foldl (fun acc r => acknowledge r acc) u))) ∧
      (reportMatches (reportContent body) s.dsr = true →
        u = { answered [] s with
          dsr := { s.dsr with content := reportContent body, reconcile := none, mirror := .inStep }
          hlc := { (answered [] s).hlc with changes := if s.dsr.mirror = .inStep then [] else [.mirror] } }) ∧
      (reportMatches (reportContent body) s.dsr = false → s.dsr.mirror ≠ .inStep →
        u = { answered [] s with dsr := { s.dsr with content := reportContent body } }) ∧
      (reportMatches (reportContent body) s.dsr = false → s.dsr.mirror = .inStep →
        ∃ pre, u = { answered [] s with
            dsr := { s.dsr with
              content := reportContent body, mirror := .pending
              reconcile := some (s.now + ms s.params.reconcile) }
            hlc := { (answered [] s).hlc with
              sending := u.hlc.sending, queue := u.hlc.queue, changes := [.mirror] } } ∧
          outgoing u.hlc = pre ++ [.snapshot s.dsr.list s.dsr.overflow (telltales s.dsr.list)] ∧
          replies u.hlc = replies s.hlc)) ∧
    (rebuildList s.params s.flt s.dsr = (s.flt, s.dsr) → (∀ t ∈ (reportContent body).triples, t.acked = false) →
      (reportMatches (reportContent body) s.dsr = true →
        exec (.clusterReport body) s =
          .next (finish { answered [] s with
            dsr := { s.dsr with content := reportContent body, reconcile := none, mirror := .inStep }
            hlc := { (answered [] s).hlc with
              changes := if s.dsr.mirror = .inStep then [] else [.mirror] } })) ∧
      (reportMatches (reportContent body) s.dsr = false → s.dsr.mirror ≠ .inStep →
        exec (.clusterReport body) s =
          .next { answered [] s with dsr := { s.dsr with content := reportContent body } }) ∧
      (reportMatches (reportContent body) s.dsr = false → s.dsr.mirror = .inStep →
        ∃ t pre, exec (.clusterReport body) s = .next t ∧
          t.dsr = { s.dsr with
            content := reportContent body, mirror := .pending
            reconcile := some (s.now + ms s.params.reconcile), ttfb := ttfbDue t } ∧
          (outgoing t.hlc).filter (fun r => !r.isStatusChange) =
            pre ++ [.snapshot s.dsr.list s.dsr.overflow (telltales s.dsr.list)] ∧
          replies t.hlc = replies s.hlc ∧ Spoke s t ∧ OnlyChanges [.dsr, .hlc] s t)) ∧
    (∀ r : Triple, (r.acked = false → acknowledge r s = s) ∧ (r.acked = true →
      (∀ e, s.dsr.list.find? (fun e => e.id = r.id) = some e → e.version = r.version →
        (e.state = .new →
          acknowledge r s = { s with
            flt := { s.flt with records := s.flt.records.map fun o => o.map fun x =>
              if x.entryId = some r.id then { x with acked := true } else x }
            dsr := { s.dsr with list := s.dsr.list.map fun x =>
              if x.id = r.id then { x with state := .acked, version := (x.version + 1) % 16 } else x } }) ∧
        (e.state = .resolved →
          acknowledge r s = { s with dsr := { s.dsr with list := s.dsr.list.filter fun x => x.id != r.id } }) ∧
        (e.state = .acked → acknowledge r s = s)) ∧
      ((∀ e, s.dsr.list.find? (fun e => e.id = r.id) = some e → e.version ≠ r.version) →
        acknowledge r s = { s with dsr := { s.dsr with staleAcks := min (s.dsr.staleAcks + 1) 255 } })))

/-! ### Events of the part -/

/-- O36. POWER-ON and RESET-LINE leave every block in its state after reset, the cause kept, the store copies and the
SERVICE line as they were; the part stays in reset while the line is held and START begins at its release (R186, and
the reset tables R17, R43, R122, R148, R150, R180, R197). While it is held no other event does anything, but that
the level of the SERVICE line is followed. The model's own choices here: logs 4, 11, 18. -/
def Obligations.EveryResetGivesTheResetState : Prop :=
  ∀ s : State,
    (∃ t, exec .powerOn s = .next t ∧ AfterReset .powerOn s.pwc.held s t) ∧
    (∃ t, exec .resetLineAssert s = .next t ∧ AfterReset .resetLine true s t) ∧
    (s.pwc.held = true →
      (∃ t, exec .resetLineRelease s = .next t ∧ AfterReset .resetLine false s t) ∧
      (∀ i : Instr,
        i ∉ [.powerOn, .resetLineAssert, .resetLineRelease, .serviceLineFall, .serviceLineRise] → exec i s = .next s) ∧
      exec .serviceLineFall s = .next { s with svc := { s.svc with line := false } } ∧
      exec .serviceLineRise s = .next { s with svc := { s.svc with line := true } }) ∧
    (s.pwc.held = false → exec .resetLineRelease s = .next s)

/-- O37. The store load done makes the part ACTIVE: each good block is in working memory and each bad one gives its
defaults with STORE-FAULT, READY goes out with its content, the silence timer and the aging count run, and the first
census starts (R182, R187, R22). The model's own choices here: logs 5, 7. -/
def Obligations.TheStoreLoadMakesThePartActive : Prop :=
  ∀ s : State, s.pwc.held = false → s.pwc.power = .start → s.clc.census = none → s.svc.state ≠ .capturing →
    ∃ t, exec .storeLoadDone s = .next t ∧
      t.pwc = { s.pwc with power := .active, agingSince := some s.now, wake := false } ∧
      t.params = (if s.stc.good .config then s.stc.config.content else Params.default) ∧
      t.jge = { s.jge with rules := if s.stc.good .rules then s.stc.rules.content else defaultRules } ∧
      t.ldt = { s.ldt with
        entries :=
          ((if s.stc.good .loadsA then s.stc.loadsA.content else List.replicate 12 none) ++
            (if s.stc.good .loadsB then s.stc.loadsB.content else List.replicate 16 none)).map fun o =>
              o.map loadEntry } ∧
      t.stc = { s.stc with
        fault := { config := !s.stc.good .config, rules := !s.stc.good .rules, loadsA := !s.stc.good .loadsA
                   loadsB := !s.stc.good .loadsB } } ∧
      replies t.hlc = replies s.hlc ++
        [.ready s.pwc.cause t.stc.fault
          ((t.ldt.entries.filterMap id).filter fun e => !isRemainder e.key).length
          ((t.ldt.entries.filterMap id).filter fun e => isRemainder e.key).length Config.storeFormat] ∧
      Spoke s t ∧ t.clc.census = some emptyRun ∧ t.clc.task = some .roll ∧ t.clc.table = s.clc.table ∧
      t.clc.censusNumber = (if 255 ≤ s.clc.censusNumber then 1 else s.clc.censusNumber + 1) ∧
      OnlyChanges [.params, .clc, .ldt, .jge, .dsr, .hlc, .stc, .pwc] s t

/-- O38. The end of a block's write: its copy is good or bad as it was read back, with the part's format number, and
STORE-FAULT follows (R184); the next of the queue begins at once (R183); a commissioning or release write ends with
SERVICE-DONE and the service IDLE (R160); and the last LOADS write of a standby entry, and no earlier one, makes the
part STANDBY, with the circuits parked by their items, the watches disarmed, a census aborted, the timers stopped
and the aging count kept, short of its sweep (R189, R191, R196, R14, R82, R146). The model's own choice here: log
12. -/
def Obligations.TheEndOfAStoreWrite : Prop :=
  ∀ (good : Bool) (b : StoreBlock) (s : State), s.pwc.held = false → s.stc.writing = some b →
    ((closeCopy b good s.stc).good b = good ∧
      (∀ d, d ≠ b → (closeCopy b good s.stc).good d = s.stc.good d) ∧
      (closeCopy b good s.stc).config.content = s.stc.config.content ∧
      (closeCopy b good s.stc).rules.content = s.stc.rules.content ∧
      (closeCopy b good s.stc).loadsA.content = s.stc.loadsA.content ∧
      (closeCopy b good s.stc).loadsB.content = s.stc.loadsB.content ∧
      (b = .config → (closeCopy b good s.stc).config.format = Config.storeFormat)) ∧
    (s.pwc.standbyEntry = false → s.stc.queue = [] → (∀ w, s.svc.write = some w → w.begun = false ∨ w.block ≠ b) →
      exec (.storeWriteEnd good) s =
        .next (finish { s with
          stc := { closeCopy b good s.stc with writing := none, fault := s.stc.fault.put b (!good) }
          hlc := { s.hlc with
            changes := if s.stc.fault.get b = !good then s.hlc.changes
              else addMatter (.storeFault b) s.hlc.changes } })) ∧
    (∀ d q, s.pwc.standbyEntry = false ∨ .loadsA ∈ s.stc.queue ∨ .loadsB ∈ s.stc.queue → s.stc.queue = d :: q →
      ∃ u, exec (.storeWriteEnd good) s = .next (finish u) ∧ u.stc.writing = some d ∧ u.stc.queue = q ∧
        u.stc.fault = s.stc.fault.put b (!good) ∧ u.pwc = s.pwc ∧ OnlyChanges [.svc, .hlc, .stc] s u) ∧
    (∀ w, s.pwc.standbyEntry = false → s.svc.write = some w → w.block = b → w.begun = true →
      ∃ u r, exec (.storeWriteEnd good) s = .next (finish u) ∧
        r = (if w.aborted then ServiceResult.aborted else if good then .done else .store) ∧
        replies u.hlc = replies s.hlc ++
          [.serviceDone w.op w.target r (if w.aborted then some good else none)] ∧
        u.svc = { s.svc with
          state := .idle, write := none
          sticky := { s.svc.sticky with store := s.svc.sticky.store || !good } }) ∧
    (s.pwc.standbyEntry = true → .loadsA ∉ s.stc.queue → .loadsB ∉ s.stc.queue →
      ∃ u count, exec (.storeWriteEnd good) s = .next (finish u) ∧
        count = s.pwc.agingCount + s.pwc.agingSince.elim 0 (fun m => s.now - m) ∧
        u.pwc = { s.pwc with
          power := .standby, standbyEntry := false, lowScans := 0, agingCount := min count 3599999999
          agingSince := none } ∧
        u.stc.writing = s.stc.queue.head? ∧ u.stc.queue = s.stc.queue.tail ∧
        u.stc.fault = s.stc.fault.put b (!good) ∧
        u.hlc.silence = none ∧ u.dsr.reconcile = none ∧ u.dsr.list = s.dsr.list.map (pauseLinger s.now) ∧
        u.clc.census = none ∧ u.clc.table = s.clc.table ∧ u.clc.standbyCycle = s.now + firstStandbyCycle ∧
        u.sfe.standbyScan = s.now + standbyScanPeriod ∧ u.sfe.supplyWindow = none ∧
        (∀ c : Circuit, (u.jge.watches.get c) = { s.jge.watches.get c with armed := none } ∧
          (u.sfe.circuits.get c).window = none ∧ (u.sfe.circuits.get c).settleTimer = none ∧
          (u.sfe.circuits.get c).zero = (s.sfe.circuits.get c).zero ∧
          (s.hlc.word.getLsbD c.val = false → (u.sfe.circuits.get c).phase = .parkedOff ∧
            (u.sfe.circuits.get c).settleEnd = none) ∧
          (s.hlc.word.getLsbD c.val = true → (u.sfe.circuits.get c).phase = .parkedOn ∧
            ((s.sfe.circuits.get c).phase ≠ .onSettled → (u.sfe.circuits.get c).settleEnd = some s.now) ∧
            (∀ e, (s.sfe.circuits.get c).phase = .onSettled → (s.sfe.circuits.get c).settleEnd = some e →
              (u.sfe.circuits.get c).settleEnd = some e))))

/-- O39. The aging count reaching 60 minutes makes a sweep and starts again from 0 (R51, R191): an entry of the
composition keeps its place and age, an OPEN one of age 3 goes and every other one ages by 1, up to 3; after the
first census, creation is tried again for each key of the composition that has no entry, and a new OPEN entry may
take such an entry's place (R50). The model's own choices here: logs 2, 20. -/
def Obligations.TheAgingSweep : Prop :=
  ∀ (t : Nat) (s : State), s.pwc.held = false → s.pwc.agingSince = some t →
    ∃ u, exec .agingSweep s = .next (finish u) ∧ u.now = max s.now (t + (agingPeriod - s.pwc.agingCount)) ∧
      u.pwc = { s.pwc with agingCount := 0, agingSince := some u.now } ∧
      (∀ i e, entryAt s.ldt i = some e → e.inComposition = true → entryAt u.ldt i = some e) ∧
      (∀ i e, entryAt s.ldt i = some e → e.inComposition = false → e.lock = .commissioned →
        entryAt u.ldt i = some { e with age := min (e.age + 1) 3 }) ∧
      (∀ i e, s.ldt.signatureTrack = none → entryAt s.ldt i = some e → e.inComposition = false → e.lock = .opened →
        entryAt u.ldt i = if e.age = 3 then none else some { e with age := min (e.age + 1) 3 }) ∧
      (∀ i e keys aged, s.ldt.signatureTrack ≠ none → keys = compositionKeys (s.clc.table.map (·.identity)) →
        aged = (if e.age = 3 then none else some { e with age := min (e.age + 1) 3 }) →
        entryAt s.ldt i = some e → e.inComposition = false → e.lock = .opened →
        (entryAt u.ldt i = aged ∨
          ∃ k ∈ keys, (∀ j d, entryAt s.ldt j = some d → d.key = k → d.inComposition = false) ∧
            entryAt u.ldt i =
              some { key := k, age := 0, lock := .opened, inComposition := true
                     cells := PerCircuit.fill LoadCell.unknown }) ∧
        ((∀ k ∈ keys, ∃ j d, entryAt s.ldt j = some d ∧ d.key = k ∧ d.inComposition = true) →
          entryAt u.ldt i = aged)) ∧
      (s.ldt.signatureTrack ≠ none →
        u.ldt.slotTrack = s.clc.table.map (fun x => findEntry u.ldt (.unit x.identity)) ∧
        u.ldt.signatureTrack = some (findEntry u.ldt (.remainder (signatureOf (s.clc.table.map (·.identity)))))) ∧
      (s.ldt.signatureTrack ≠ none →
        u.ldt.loadsFull = (u.ldt.slotTrack.any Option.isNone || u.ldt.signatureTrack.join.isNone)) ∧
      OnlyChanges [.now, .ldt, .hlc, .pwc] s u

/-- O40. A scan converts every input once and gives its sample to the windows that take one: the supply window, and a
circuit's when it is OFF-SETTLED, or ON-SETTLED with a window in progress or due. A window that has its last sample
is complete at the end of the 2 ms period (R1 to R4, R8, R9). Standby has no such scan. The model's own choices
here: logs 2, 24, 25, 29. -/
def Obligations.AScanTakesItsSamples : Prop :=
  ∀ (codes : ScanCodes) (s : State), s.pwc.held = false →
    (s.pwc.power = .standby → exec (.scan codes) s = .next (finish s)) ∧
    (s.pwc.power ≠ .standby →
      ∃ u at', exec (.scan codes) s = .next (finish u) ∧ at' = max s.now s.sfe.nextScan ∧ u.now = at' ∧
        u.sfe.nextScan = at' + scanPeriod ∧ u.sfe.supplyReading = s.sfe.supplyReading ∧
        u.sfe.voltage = s.sfe.voltage ∧
        (∀ w : SupplyWindow,
          w = s.sfe.supplyWindow.getD { len := s.params.window, sum := 0, count := 0 } →
          (w.count + 1 < w.len → u.sfe.supplyDone = s.sfe.supplyDone ∧
            u.sfe.supplyWindow = some { w with sum := w.sum + codes.supply.toNat * 10, count := w.count + 1 }) ∧
          (w.len ≤ w.count + 1 → u.sfe.supplyWindow = none ∧
            u.sfe.supplyDone =
              some ({ w with sum := w.sum + codes.supply.toNat * 10, count := w.count + 1 }, at' + scanPeriod))) ∧
        (∀ (c : Circuit) (x : CircuitSense) (w : Window), x = s.sfe.circuits.get c → x.settleTimer = none →
          w = (let w := x.window.getD
                { len := s.params.window, sumCurrent := 0, sumSupply := 0, count := 0, saturated := false }
              { w with
                sumCurrent := w.sumCurrent +
                  min (((codes.current.get c).toNat * s.params.gain.get c * 2 + 1000) / 2000) 30000
                sumSupply := w.sumSupply + codes.supply.toNat * 10, count := w.count + 1
                saturated := w.saturated || decide ((codes.current.get c).toNat = 4095) }) →
          (x.phase = .offSettled ∨
              (x.phase = .onSettled ∧ (x.window ≠ none ∨ ∃ d, x.nextStart = some d ∧ d ≤ at')) →
            u.sfe.circuits.get c =
              if w.len ≤ w.count then { x with window := none, nextStart := none, done := some (w, at' + scanPeriod) }
              else { x with window := some w }) ∧
          (x.phase ≠ .offSettled →
            (x.phase = .onSettled → x.window = none ∧ ∀ d, x.nextStart = some d → at' < d) →
            u.sfe.circuits.get c = x)) ∧
        (∀ (c : Circuit) d, (s.sfe.circuits.get c).settleTimer = some d → at' < d →
          (s.sfe.circuits.get c).phase ∈ [.onSettling, .offSettling] →
          u.sfe.circuits.get c = s.sfe.circuits.get c) ∧
        (∀ (c : Circuit) d, (s.sfe.circuits.get c).settleTimer = some d → d ≤ at' →
          (s.sfe.circuits.get c).phase = .onSettling →
          (u.sfe.circuits.get c).phase = .onSettled ∧ (u.sfe.circuits.get c).settleEnd = some d) ∧
        OnlyChanges [.now, .sfe] s u)

/-- O41. A completed supply window gives the supply reading and sets or clears VOLTAGE, which an offer out of the window
at the same scan leaves set (R3, R11). A completed zero window gives the zero reference, clamped at 500 mA with LEAK
following, and SENSE-SAT follows its mark (R8, R11). A settle timer that runs out in ACTIVE ends settling: ON-
SETTLED with the settle end and the first window from that moment, or OFF-SETTLED (R7). The model's own choice here:
log 2. -/
def Obligations.WindowsAndSettlingComplete : Prop :=
  ∀ s : State, s.pwc.held = false →
    (∀ w d, s.pwc.power ≠ .standby → s.sfe.supplyDone = some (w, d) →
      ∃ v reading, reading = (2 * w.sum + w.len) / (2 * w.len) ∧
        v = (decide (reading < 16000) || decide (32000 < reading) || decide (s.sfe.voltageMark = some d)) ∧
        exec .supplyWindowComplete s =
          .next (finish { s with
            now := max s.now d
            sfe := { s.sfe with supplyDone := none, supplyReading := reading, voltage := v }
            hlc := { s.hlc with
              changes := if s.sfe.voltage = v then s.hlc.changes else addMatter .voltage s.hlc.changes } })) ∧
    (∀ (c : Circuit) (x : CircuitSense) w d, x = s.sfe.circuits.get c → x.phase = .offSettled → x.done = some (w, d) →
      ∃ u mean, exec (.zeroWindowComplete c) s = .next (finish u) ∧
        mean = (2 * w.sumCurrent + w.len) / (2 * w.len) ∧ u.now = max s.now d ∧
        u.sfe = { s.sfe with
          circuits := s.sfe.circuits.set c
            { x with done := none, zero := min mean 500, leak := decide (500 < mean), senseSat := w.saturated } } ∧
        u.hlc = { s.hlc with changes := u.hlc.changes } ∧
        (∀ m, m ∈ u.hlc.changes ↔ m ∈ s.hlc.changes ∨ (m = .leak c ∧ x.leak ≠ decide (500 < mean)) ∨
          (m = .senseSat c ∧ x.senseSat ≠ w.saturated)) ∧
        OnlyChanges [.now, .sfe, .hlc] s u) ∧
    (∀ (c : Circuit) (x : CircuitSense) (d : Nat), s.pwc.power = .active → x = s.sfe.circuits.get c →
      x.settleTimer = some d →
      (x.phase = .onSettling →
        exec (.settleExpiry c) s =
          .next (finish { s with
            now := max s.now d
            sfe := { s.sfe with circuits := (s.sfe.circuits.set c
              { x with phase := .onSettled, settleTimer := none, window := none, done := none, nextStart := some d
                       settleEnd := some d }) } })) ∧
      (x.phase = .offSettling →
        exec (.settleExpiry c) s =
          .next (finish { s with
            now := max s.now d
            sfe := { s.sfe with circuits := (s.sfe.circuits.set c
              { x with phase := .offSettled, settleTimer := none, window := none, done := none, nextStart := none
                       settleEnd := none }) } })))

/-- O42. A judgement instant: the window's mean, supply mean and mark are entered in the circuit's summary with the
action chosen and the held cause, the next window starts J less its W scans later, SENSE-SAT follows the mark, and
an offer out of the voltage window sets VOLTAGE (R9 to R11, R85). A held judgement changes no record, baseline or
capture (R83); one that is not hands its batch to the Fault Table and then its learning and capture values (R84,
R99, R100). The model's own choices here: logs 2, 15, 38. -/
def Obligations.AJudgementInstantJudgesItsOffer : Prop :=
  ∀ (c : Circuit) (w : Window) (d : Nat) (x : CircuitSense) (s : State), s.pwc.held = false →
    x = s.sfe.circuits.get c → x.phase = .onSettled → x.done = some (w, d) →
    ∃ u o act held, exec (.judgementInstant c) s = .next (finish u) ∧
      o = { circuit := c, time := d, mean := (2 * w.sumCurrent + w.len) / (2 * w.len), zero := x.zero
            volts := (2 * w.sumSupply + w.len) / (2 * w.len), saturated := w.saturated, settleEnd := x.settleEnd
            parked := false : Offer } ∧
      act = chooseAction s.jge.rules s.hlc.word c ∧
      held = (if s.clc.census.isSome then HeldCause.census
        else if o.volts < 16000 ∨ 32000 < o.volts then .voltage
        else if act.1 = .hold then .rule else .none) ∧
      u.now = max s.now d ∧
      u.sfe.circuits.get c =
        { x with
          done := none, senseSat := w.saturated
          nextStart := some (d + ms s.params.interval - s.params.window * scanPeriod) } ∧
      (∀ e : Circuit, e ≠ c → u.sfe.circuits.get e = s.sfe.circuits.get e ∧
        u.jge.summaries.get e = s.jge.summaries.get e) ∧
      (o.volts < 16000 ∨ 32000 < o.volts → u.sfe.voltage = true ∧ u.sfe.voltageMark = some d) ∧
      (16000 ≤ o.volts → o.volts ≤ 32000 → u.sfe.voltage = s.sfe.voltage) ∧
      u.jge.rules = s.jge.rules ∧ u.jge.watches = s.jge.watches ∧
      (held ≠ .none →
        u.jge.summaries.get c = some
          { time := d, mean := o.mean, zero := x.zero, volts := o.volts, saturated := w.saturated, parked := false
            measured := measured o, action := act.1, factor := act.2, held := held, residual := none
            expectation := none, pool := .absent, poolSubject := none } ∧
        OnlyChanges [.now, .sfe, .jge, .hlc] s u) ∧
      (held = .none →
        ∃ j, j = judgement
            { factor := act.2, tAbs := s.params.tAbs.get c, tPm := s.params.tPm.get c
              tOver := s.params.tOver.get c } o (slotViews s o) (remainderView s c) ∧
          u.jge.summaries.get c = some
            { time := d, mean := o.mean, zero := x.zero, volts := o.volts, saturated := w.saturated, parked := false
              measured := measured o, action := act.1, factor := act.2, held := .none, residual := some j.residual
              expectation := j.expectation, pool := j.pool, poolSubject := j.subject } ∧
          recordContents u.flt = recordContents (applyBatch s.params j.batch s.flt).1 ∧
          u.flt.activation = (applyBatch s.params j.batch s.flt).1.activation ∧
          u.ldt = (if s.pwc.standbyEntry then s.ldt
            else learnAll s.params o (slotViews s o) (remainderView s c) j.residual s.ldt) ∧
          u.svc = captureAll s.params o (slotViews s o) (remainderView s c) j.residual s.svc ∧
          OnlyChanges [.now, .sfe, .jge, .flt, .ldt, .dsr, .svc, .hlc, .pwc] s u)

/-- O43. A standby scan: the supply sample is the supply reading and sets or clears VOLTAGE, the fifth low one in a row
sets the SUPPLY flag, and each PARKED-ON circuit is judged on its one sample, with no learning and no capture value
(R15, R101, R192): its summary is that of its judgement, or of the held cause, and the outcomes of all that are not
held reach the Fault Table in ascending order of circuit. Each entry to ACTIVE is reported, and the wake record
takes the first report the mask enables (R106, R111, R193). The model's own choices here: logs 2, 15, 30. -/
def Obligations.AStandbyScanJudgesTheParkedCircuits : Prop :=
  ∀ (codes : ScanCodes) (s : State), s.pwc.held = false → s.pwc.power = .standby →
    ∃ u v, exec (.standbyScan codes) s = .next (finish u) ∧ v = codes.supply.toNat * 10 ∧
      u.now = max s.now s.sfe.standbyScan ∧ u.sfe.standbyScan = u.now + standbyScanPeriod ∧
      u.sfe.supplyReading = v ∧ u.sfe.voltage = (decide (v < 16000) || decide (32000 < v)) ∧
      u.pwc.lowScans = (if v < 16000 then min (s.pwc.lowScans + 1) 5 else 0) ∧
      u.pwc.wakeFlags.supply = (s.pwc.wakeFlags.supply || decide (v < 16000 ∧ 4 ≤ s.pwc.lowScans)) ∧
      u.pwc.wakeFlags.composition = s.pwc.wakeFlags.composition ∧
      (∀ c : Circuit, (s.sfe.circuits.get c).phase ≠ .parkedOn →
        u.sfe.circuits.get c = s.sfe.circuits.get c ∧ u.jge.summaries.get c = s.jge.summaries.get c) ∧
      (∃ (o : Circuit → Offer) (act : Circuit → Action × Nat) (held : Circuit → HeldCause) (j : Circuit → Judgement)
          (batch : List Verdict),
        (∀ c, o c =
          { circuit := c, time := u.now
            mean := min (((codes.current.get c).toNat * s.params.gain.get c * 2 + 1000) / 2000) 30000
            zero := (s.sfe.circuits.get c).zero, volts := v
            saturated := decide ((codes.current.get c).toNat = 4095), settleEnd := (s.sfe.circuits.get c).settleEnd
            parked := true }) ∧
        (∀ c, act c = chooseAction s.jge.rules s.hlc.word c) ∧
        (∀ c, held c = (if s.clc.census.isSome then HeldCause.census
          else if v < 16000 ∨ 32000 < v then .voltage
          else if (act c).1 = .hold then .rule else .none)) ∧
        (∀ c, j c = judgement
          { factor := (act c).2, tAbs := s.params.tAbs.get c, tPm := s.params.tPm.get c
            tOver := s.params.tOver.get c } (o c) (slotViews s (o c)) (remainderView s c)) ∧
        (∀ c : Circuit, (s.sfe.circuits.get c).phase = .parkedOn →
          u.sfe.circuits.get c =
            { s.sfe.circuits.get c with senseSat := decide ((codes.current.get c).toNat = 4095) } ∧
          ∃ x, u.jge.summaries.get c = some x ∧
            x =
              { time := u.now, mean := (o c).mean, zero := (s.sfe.circuits.get c).zero, volts := v
                saturated := (o c).saturated, parked := true, measured := measured (o c), action := (act c).1
                factor := (act c).2, held := held c
                residual := if held c = .none then some (j c).residual else none
                expectation := if held c = .none then (j c).expectation else none
                pool := if held c = .none then (j c).pool else .absent
                poolSubject := if held c = .none then (j c).subject else none } ∧
            (v < 16000 ∨ 32000 < v → x.held ≠ .none ∧ x.residual = none)) ∧
        batch = ((allCircuits.filter fun c =>
          decide ((s.sfe.circuits.get c).phase = .parkedOn ∧ held c = .none)).map fun c => (j c).batch).flatten ∧
        recordContents u.flt = recordContents (applyBatch s.params batch s.flt).1 ∧
        u.flt.activation = (applyBatch s.params batch s.flt).1.activation ∧
        u.flt.saturated = (applyBatch s.params batch s.flt).1.saturated ∧
        Reported s.params.wakeMask
          ((if v < 16000 ∧ 4 ≤ s.pwc.lowScans then
              [{ cause := .supply, circuit := none, slot := none, identity := none }] else []) ++
            faultReports (applyBatch s.params batch s.flt).2) s.pwc u.pwc) ∧
      (v < 16000 ∨ 32000 < v → recordContents u.flt = recordContents s.flt) ∧
      u.jge.rules = s.jge.rules ∧ u.jge.watches = s.jge.watches ∧
      OnlyChanges [.now, .sfe, .jge, .flt, .dsr, .hlc, .pwc] s u

/-- O44. An armed watch that runs out is loaded again at once with its period, halved for a turn circuit whose
fast-flash request is set, and gives a significant CADENCE outcome unless a census runs, VOLTAGE is set or a HOLD
set matches (R78, R80, R81). The model's own choice here: log 2. -/
def Obligations.CadenceExpiryGivesItsOutcome : Prop :=
  ∀ (c : Circuit) (a : Arming) (s : State), s.pwc.held = false → (s.jge.watches.get c).armed = some a →
    ∃ u v, exec (.cadenceExpiry c) s = .next (finish u) ∧ u.now = max s.now a.expires ∧
      v = (if (c = 0 ∧ u.flt.fastLeft = true) ∨ (c = 1 ∧ u.flt.fastRight = true) then a.period / 2 else a.period) ∧
      u.jge = { s.jge with watches := (s.jge.watches.set c
        { armed := some { period := a.period, expires := u.now + ms v }, load := v }) } ∧
      ((s.clc.census ≠ none ∨ s.sfe.voltage = true ∨ holdMatches s.jge.rules s.hlc.word c = true) →
        OnlyChanges [.now, .jge] s u) ∧
      (s.clc.census = none → s.sfe.voltage = false → holdMatches s.jge.rules s.hlc.word c = false →
        recordContents u.flt = recordContents (applyBatch s.params
          [{ key := .cadence c, kind := some .cadence, identity := none, expected := 0, deficit := 0 }] s.flt).1 ∧
        OnlyChanges [.now, .jge, .flt, .dsr, .hlc, .pwc] s u)

/-- O45. The frames the part begins, on an idle line and no sooner than 3 ms of idle: the ROLL and the ASSIGN of a
census (R18, R26, R28), the POLL of the next slot a cycle visits, with its 40 ms limit (R35, R36), and a re-poll
(R36). When a frame of the part ends its answer window of 10 ms opens (R18). A byte takes 10 bit times at 19,200
bit/s, so that 4, 5 and 12 bytes last 2083, 2604 and 6250 whole microseconds (log 27). The clock's move is log 2. -/
def Obligations.ThePartSendsItsFrames : Prop :=
  ∀ s : State, s.pwc.held = false →
    (∀ run start, s.clc.census = some run → s.clc.line = .idle → start = max s.now (s.clc.idleFrom + chainIdle) →
      (s.clc.task = some .roll →
        exec .rollSend s = .next (finish { s with
          now := start
          clc := { s.clc with task := none, line := .sending .roll (start + 2604), lineBreak := none } })) ∧
      (∀ a, s.clc.task = some (.assign a) →
        exec .assignSend s = .next (finish { s with
          now := start
          clc := { s.clc with task := none, line := .sending (.assign a) (start + 6250), lineBreak := none } }))) ∧
    (∀ y i x start, s.clc.census = none → s.clc.visit = none → s.clc.line = .idle → s.clc.cycle = some y →
      s.pwc.power ≠ .start → y.pos ≤ i → s.clc.table[i]? = some x → (x.state ≠ .lost ∨ s.clc.cycleCounter = 0) →
      (∀ j z, y.pos ≤ j → j < i → s.clc.table[j]? = some z → z.state = .lost ∧ s.clc.cycleCounter ≠ 0) →
      start = max s.now (max (s.clc.idleFrom + chainIdle) y.start) →
      exec .visitStart s = .next (finish { s with
        now := start
        clc := { s.clc with
          visit := some { slot := i + 1, limit := start + visitLimit, repolls := 0, repollDue := none }
          cycle := some { y with pos := i + 1 }
          line := .sending .poll (start + 2083), lineBreak := none } })) ∧
    (∀ v d start, s.clc.visit = some v → s.clc.line = .idle → v.repollDue = some d →
      start = max s.now (max d (s.clc.idleFrom + chainIdle)) →
      exec .repoll s = .next (finish { s with
        now := start
        clc := { s.clc with
          visit := some { v with repolls := v.repolls + 1, repollDue := none }
          line := .sending .poll (start + 2083), lineBreak := none } })) ∧
    (∀ x ends, s.clc.line = .sending x ends →
      exec .chainFrameSent s = .next (finish { s with
        now := max s.now ends
        clc := { s.clc with line := .window x (max s.now ends + answerWindow) } }))

/-- O46. A valid ROLL-ANSWER raises the answered count, clears the silent count and places its node: slot 7 for an
identity that has a slot or for a seventh node, else the next slot (R26, R27). The first silence or invalid answer
is counted and the next ROLL is due (R26). The model's own choices here: logs 2, 27. -/
def Obligations.ARollIsAnsweredOrSilent : Prop :=
  ∀ (run : CensusRun) (closes : Nat) (s : State), s.pwc.held = false → s.clc.census = some run →
    s.clc.line = .window .roll closes →
    (∀ payload : List Byte, payload.length = 10 → (∀ c, (lampsAt payload 6).get c ≤ 4) →
      ∃ node a, node = { identity := identityAt payload 0, lamps := lampsAt payload 6 : Placed } ∧
        a = (if node.identity ∈ run.table.map (·.identity) then
            { node := node, choice := .duplicate, slot := 7, repeated := false : Assign }
          else if 6 ≤ run.table.length then { node := node, choice := .beyondSix, slot := 7, repeated := false }
          else { node := node, choice := .slot, slot := run.table.length + 1, repeated := false }) ∧
        exec (.chainAnswerComplete (chainFrame 0 2 payload)) s = .next (finish { s with
          clc := { s.clc with
            census := some { run with answered := run.answered + 1, silent := 0 }, task := some (.assign a)
            line := .idle, idleFrom := max s.clc.idleFrom s.now } })) ∧
    (run.silent = 0 →
      exec .answerWindowClose s = .next (finish { s with
        now := max s.now closes
        clc := { s.clc with
          census := some { run with silent := 1 }, task := some .roll, line := .idle
          idleFrom := max s.clc.idleFrom (closes - answerWindow) } }) ∧
      exec .chainAnswerAbandon s = .next (finish { s with
        clc := { s.clc with
          census := some { run with silent := 1 }, task := some .roll, line := .idle
          idleFrom := max s.clc.idleFrom (s.now - chainIdle) } }) ∧
      ∀ f : ChainFrame, (f.ty ≠ 2 ∨ f.addr ≠ 0 ∨ f.len ≠ 10 ∨ f.crc ≠ crc8 (f.addr :: f.ty :: f.len :: f.payload) ∨
          ∃ c, 4 < (lampsAt f.payload 6).get c) →
        exec (.chainAnswerComplete f) s = .next (finish { s with
          clc := { s.clc with
            census := some { run with silent := 1 }, task := some .roll, line := .idle
            idleFrom := max s.clc.idleFrom s.now } }))

/-- O47. The echo of the ASSIGN sent makes the choice take effect, and the next ROLL is due unless twelve nodes have
answered, when the census completes; a first ASSIGN without it is due once more (R28). The model's own choices here:
logs 2, 27. -/
def Obligations.AnAssignIsEchoedOrRepeated : Prop :=
  ∀ (run : CensusRun) (a : Assign) (closes : Nat) (s : State), s.pwc.held = false → s.clc.census = some run →
    s.clc.line = .window (.assign a) closes →
    (run.answered < 12 →
      exec (.chainAnswerComplete (chainFrame 0 4 (assignPayload a s.clc.censusNumber))) s = .next (finish { s with
        clc := { s.clc with
          census := some (match a.choice with
            | .slot => { run with table := run.table ++ [a.node] }
            | .duplicate => { run with duplicates := run.duplicates + 1 }
            | .beyondSix => { run with beyond := run.beyond + 1 })
          task := some .roll, line := .idle, idleFrom := max s.clc.idleFrom s.now } })) ∧
    (12 ≤ run.answered →
      ∃ u, exec (.chainAnswerComplete (chainFrame 0 4 (assignPayload a s.clc.censusNumber))) s = .next (finish u) ∧
        u.clc.census = none ∧ u.clc.task = none ∧ u.clc.line = .idle) ∧
    (a.repeated = false →
      exec .answerWindowClose s = .next (finish { s with
        now := max s.now closes
        clc := { s.clc with
          task := some (.assign { a with repeated := true }), line := .idle
          idleFrom := max s.clc.idleFrom (closes - answerWindow) } }) ∧
      exec .chainAnswerAbandon s = .next (finish { s with
        clc := { s.clc with
          task := some (.assign { a with repeated := true }), line := .idle
          idleFrom := max s.clc.idleFrom (s.now - chainIdle) } }) ∧
      ∀ f : ChainFrame, f ≠ chainFrame 0 4 (assignPayload a s.clc.censusNumber) →
        exec (.chainAnswerComplete f) s = .next (finish { s with
          clc := { s.clc with
            task := some (.assign { a with repeated := true }), line := .idle
            idleFrom := max s.clc.idleFrom s.now } }))

/-- O48. A census completes at its second silent ROLL in a row, whether silence, an abandoned or an invalid answer ended
it, when an ASSIGN and its repeat fail, and with the ASSIGN of the twelfth node (R26, R28). The new table is the
units assigned, PRESENT, and, unless the coupling flag is set, the missing old ones in the room left, LOST (R31);
the rest of R33 follows, CENSUS-DONE with the counts among it; the Load Table marks the entries of the new
composition, never evicting one (R47, R49). Every fault record goes, stays or follows its unit, and each unit newly
LOST gets its NODE-LOST record where a position is empty (R116). The RESOLVED entries follow or leave with their
units, and the REMAINDER ones leave when the signature has changed, before the one re-evaluation (R134). The model's
own choices here: logs 2, 27. -/
def Obligations.ACensusCompletes : Prop :=
  (∀ (i : Instr) (run last : CensusRun) (x : Exchange) (closes time idle : Nat) (s : State), s.pwc.held = false →
    s.clc.census = some last → s.clc.line = .window x closes →
    ((run = last ∧ ((x = .roll ∧ 1 ≤ last.silent) ∨ ∃ a, x = .assign a ∧ a.repeated = true) ∧
        ((i = .answerWindowClose ∧ time = max s.now closes ∧ idle = closes - answerWindow) ∨
          (i = .chainAnswerAbandon ∧ time = s.now ∧ idle = s.now - chainIdle))) ∨
      (run = last ∧ time = s.now ∧ idle = s.now ∧ ∃ f, i = .chainAnswerComplete f ∧
        ((x = .roll ∧ 1 ≤ last.silent ∧ (f.ty ≠ 2 ∨ f.addr ≠ 0 ∨ f.len ≠ 10 ∨
            f.crc ≠ crc8 (f.addr :: f.ty :: f.len :: f.payload) ∨ ∃ c, 4 < (lampsAt f.payload 6).get c)) ∨
          ∃ a, x = .assign a ∧ a.repeated = true ∧ f ≠ chainFrame 0 4 (assignPayload a s.clc.censusNumber))) ∨
      (time = s.now ∧ idle = s.now ∧ 12 ≤ last.answered ∧ ∃ a, x = .assign a ∧
        i = .chainAnswerComplete (chainFrame 0 4 (assignPayload a s.clc.censusNumber)) ∧
        run = (match a.choice with
          | .slot => { last with table := last.table ++ [a.node] }
          | .duplicate => { last with duplicates := last.duplicates + 1 }
          | .beyondSix => { last with beyond := last.beyond + 1 }))) →
    ∃ u old ids kept res, exec i s = .next (finish u) ∧ u.now = time ∧ old = s.clc.table.map (·.identity) ∧
      kept = (if s.clc.coupling then []
        else (s.clc.table.filter fun y => decide (y.identity ∉ run.table.map (·.identity))).take
          (6 - run.table.length)) ∧
      u.clc.table =
        run.table.map (fun n =>
          { identity := n.identity, lamps := n.lamps, state := .present, misses := 0, latest := none : Slot }) ++
        kept.map (fun y => { y with state := .lost, misses := max y.misses 8, latest := none }) ∧
      u.clc = { s.clc with
        table := u.clc.table, census := none, coupling := false, holdoff := some (u.now + holdoffTime)
        cycleCounter := 0, task := none, line := .idle, idleFrom := max s.clc.idleFrom idle
        counts := { enumerated := run.table.length, retained := u.clc.table.length - run.table.length
                    duplicates := run.duplicates, beyond := run.beyond }
        cycle := some { pos := 0, start := u.now, ended := none, closing := false } } ∧
      replies u.hlc = replies s.hlc ++ [.censusDone s.clc.censusNumber u.clc.counts] ∧
      ids = u.clc.table.map (·.identity) ∧
      u.ldt = { lookup ids s.ldt with
        loadsFull := (lookup ids s.ldt).slotTrack.any Option.isNone ||
          (lookup ids s.ldt).signatureTrack.join.isNone } ∧
      (∀ i e, entryAt s.ldt i = some e → e.key ∈ compositionKeys ids →
        entryAt u.ldt i = some { e with inComposition := true, age := 0 }) ∧
      (∀ i e, entryAt s.ldt i = some e → e.key ∉ compositionKeys ids → e.lock = .commissioned →
        entryAt u.ldt i = some { endRunsOf e with inComposition := false }) ∧
      res = censusResult run s.clc.coupling s.clc.table ∧
      recordContents u.flt = recordContents (applyCensus res s.flt).1 ∧
      (∀ i r, (recordAt s.flt i).bind (censusRecord old ids run.table.length) = some r →
        (recordAt u.flt i).map FaultRecord.content = some r.content) ∧
      (∀ i r, (recordAt s.flt i).bind (censusRecord old ids run.table.length) = none → recordAt u.flt i = some r →
        ∃ n y, kept[n]? = some y ∧ y.state ≠ .lost ∧ r.key = .nodeLost (run.table.length + n + 1) ∧
          r.identity = some y.identity ∧ r.kind = .nodeLost ∧ r.state = .active ∧ r.acked = false) ∧
      (∀ n y, kept[n]? = some y → y.state ≠ .lost →
        (∃ i r, recordAt u.flt i = some r ∧ r.key = .nodeLost (run.table.length + n + 1)) ∨
          u.flt.saturated = true) ∧
      u.dsr.list = (rebuildList s.params (applyCensus res s.flt).1 { s.dsr with
        list := ((retireEntries (lingerStart { s with now := time }) (applyCensus res s.flt).2 s.dsr.list).map
          (syncEntry (applyCensus res s.flt).1.records)).filterMap (censusResolved old res) }).2.list ∧
      OnlyChanges [.now, .clc, .ldt, .flt, .dsr, .hlc, .pwc] s u) ∧
  (∀ (old new : List Identity) (res : CensusResult) (e : DisplayEntry), res.oldSignature = signatureOf old →
    res.newSignature = signatureOf new → res.moves = old.map (fun id => (new.findIdx? (· = id)).map (· + 1)) →
    (e.state ≠ .resolved ∨ e.subject = none → censusResolved old res e = some e) ∧
    (e.state = .resolved → e.subject = some .remainder →
      censusResolved old res e = if signatureOf old = signatureOf new then some e else none) ∧
    (∀ n id, e.state = .resolved → e.subject = some (.slot n) → e.identity = some id → id ∈ old →
      censusResolved old res e =
        ((new.findIdx? (· = id)).map (· + 1)).map fun m =>
          if m = n then e else { e with subject := some (.slot m), version := (e.version + 1) % 16 }))

/-- What the end of a visit at the moment t leaves of its cycle y, where no census starts with it: the cycle that standby
entry closed ends, as a standby cycle does with its last visit, and the counter steps; any other keeps the moment (R35,
R41). -/
def CycleAtVisitEnd (s : State) (y : PollCycle) (t : Nat) (u : Clc) : Prop :=
  ∀ done : Prop,
    (done ↔ y.closing = true ∨ (s.pwc.power = .standby ∧ ∀ j z, y.pos ≤ j → s.clc.table[j]? = some z →
      z.state = .lost ∧ s.clc.cycleCounter ≠ 0)) →
    (done → u.cycleCounter = (s.clc.cycleCounter + 1) % 8 ∧
      u.cycle = if s.pwc.power = .active then some { pos := 0, start := t, ended := none, closing := false }
        else none) ∧
    (¬done → u.cycleCounter = s.clc.cycleCounter ∧ u.cycle = some { y with ended := some t })

/-- O49. A visit's valid REPORT ends it (R36, R37): from the slot's unit it becomes the latest report, with misses 0 and
PRESENT (R34, R39), and the NODE-LOST record of a LOST slot goes (R114); from another unit it changes no slot and,
in ACTIVE, starts a census, which ends a capture (R22, R38, R157). A standby cycle ends with its last visit, and the
cycle that standby entry closed with the visit in progress (R41). In STANDBY both answers are COMPOSITION causes
(R192, R193). A first or second BUSY is followed by a re-poll 3 ms later (R36). The model's own choices here: logs
27, 42. -/
def Obligations.AVisitIsAnswered : Prop :=
  ∀ (v : Visit) (x : Slot) (y : PollCycle) (closes : Nat) (s : State), s.pwc.held = false → s.clc.visit = some v →
    v.slot < 256 → slotOf s v.slot = some x → s.clc.cycle = some y → s.clc.line = .window .poll closes →
    (v.repolls < 2 →
      exec (.chainAnswerComplete (chainFrame v.slot 7 [])) s = .next (finish { s with
        clc := { s.clc with
          visit := some { v with repollDue := some (s.now + repollDelay) }, line := .idle
          idleFrom := max s.clc.idleFrom s.now } })) ∧
    (∀ payload : List Byte, payload.length = 31 →
      ((reportOf payload).identity = x.identity →
        ∃ u, exec (.chainAnswerComplete (chainFrame v.slot 6 payload)) s = .next (finish u) ∧
          u.clc = { s.clc with
            table := s.clc.table.set (v.slot - 1)
              { x with state := .present, misses := 0
                       latest := some { report := reportOf payload, arrival := s.now } }
            visit := none, line := .idle, idleFrom := max s.clc.idleFrom s.now
            cycle := u.clc.cycle, cycleCounter := u.clc.cycleCounter } ∧
          CycleAtVisitEnd s y s.now u.clc ∧
          (x.state ≠ .lost → OnlyChanges [.clc] s u) ∧
          (x.state = .lost →
            recordContents u.flt =
              (recordContents s.flt).map (fun o => o.filter fun r => decide (r.key ≠ .nodeLost v.slot)) ∧
            (s.pwc.power = .standby → u.pwc.wakeFlags.composition = true ∧
              Reported s.params.wakeMask
                [{ cause := .composition, circuit := none, slot := some v.slot, identity := some x.identity }]
                s.pwc u.pwc) ∧
            OnlyChanges [.clc, .flt, .dsr, .hlc, .pwc] s u)) ∧
      ((reportOf payload).identity ≠ x.identity →
        ∃ u, exec (.chainAnswerComplete (chainFrame v.slot 6 payload)) s = .next (finish u) ∧
          u.clc.table = s.clc.table ∧ u.clc.visit = none ∧ u.flt = s.flt ∧
          (s.pwc.power = .active → s.clc.census = none →
            u.clc.census = some emptyRun ∧ u.clc.task = some .roll ∧ u.svc = captureAborted s.svc) ∧
          (s.pwc.power ≠ .active ∨ s.clc.census ≠ none → u.clc.census = s.clc.census ∧ u.svc = s.svc ∧
            CycleAtVisitEnd s y s.now u.clc) ∧
          (s.pwc.power = .standby →
            u.pwc.wakeFlags = { s.pwc.wakeFlags with composition := true } ∧
            Reported s.params.wakeMask
              [{ cause := .composition, circuit := none, slot := some v.slot
                 identity := some (reportOf payload).identity }] s.pwc u.pwc) ∧
          OnlyChanges [.clc, .hlc, .svc, .pwc] s u))

/-- O50. The answer window that closes on a POLL, an answer that is abandoned or invalid, a third BUSY and the visit
limit, which may also expire on a POLL being sent or before a re-poll, each end the visit in a miss (R36, R37): the
counter rises, saturating at 255; at 3 a PRESENT slot becomes STALE, which in ACTIVE starts a census, ending a
capture, or, in the hold-off, sets the pending trigger; at 8 a STALE slot becomes LOST and asks for its NODE-LOST
record (R22, R23, R34, R114, R157). The cycle goes on or ends as after any visit (R35, R41). A wake record held
stays (R193). The model's own choices here: logs 2, 27, 42. -/
def Obligations.AFailedVisitIsAMiss : Prop :=
  ∀ (i : Instr) (v : Visit) (x : Slot) (closes : Nat) (s : State), s.pwc.held = false → s.clc.visit = some v →
    slotOf s v.slot = some x → s.clc.census = none →
    ((i = .visitTimeLimit ∧ (s.clc.line = .idle ∨ ∃ ends, s.clc.line = .sending .poll ends)) ∨
      (s.clc.line = .window .poll closes ∧
        (i ∈ [.answerWindowClose, .chainAnswerAbandon, .visitTimeLimit] ∨
          (2 ≤ v.repolls ∧ v.slot < 256 ∧ i = .chainAnswerComplete (chainFrame v.slot 7 [])) ∨
          ∃ f, i = .chainAnswerComplete f ∧
            (f.crc ≠ crc8 (f.addr :: f.ty :: f.len :: f.payload) ∨ f.addr.toNat ≠ v.slot ∨ (f.ty ≠ 6 ∧ f.ty ≠ 7) ∨
              (f.ty = 6 ∧ f.len ≠ 31) ∨ (f.ty = 7 ∧ f.len ≠ 0))))) →
    ∃ u m, exec i s = .next (finish u) ∧ m = min (x.misses + 1) 255 ∧
      u.now = (if i = .answerWindowClose then max s.now closes
        else if i = .visitTimeLimit then max s.now v.limit else s.now) ∧
      u.clc.visit = none ∧ u.clc.line = .idle ∧ u.ldt = s.ldt ∧ u.params = s.params ∧ u.sfe = s.sfe ∧
      (∃ st, u.clc.table = s.clc.table.set (v.slot - 1) { x with misses := m, state := st } ∧
        (x.state = .present → st = if 3 ≤ m then .stale else .present) ∧
        (x.state = .stale → st = if 8 ≤ m then .lost else .stale) ∧
        (x.state = .lost → st = .lost)) ∧
      (x.state = .present → 3 ≤ m → s.pwc.power = .active →
        (s.clc.holdoff = none → u.clc.census = some emptyRun ∧ u.clc.task = some .roll) ∧
        (s.clc.holdoff ≠ none → u.clc.census = none ∧ u.clc.pendingTrigger = true)) ∧
      (∀ y, s.clc.cycle = some y →
        ¬(x.state = .present ∧ 3 ≤ m ∧ s.pwc.power = .active ∧ s.clc.holdoff = none) →
        CycleAtVisitEnd s y u.now u.clc) ∧
      (x.state = .present → 3 ≤ m → s.pwc.power ≠ .active → u.clc.census = none ∧
        u.clc.pendingTrigger = s.clc.pendingTrigger) ∧
      u.svc = (if x.state = .present ∧ 3 ≤ m ∧ s.pwc.power = .active ∧ s.clc.holdoff = none then captureAborted s.svc
        else s.svc) ∧
      (x.state = .stale → 8 ≤ m →
        recordContents u.flt = recordContents (createNodeLost v.slot x.identity s.flt).1 ∧
        (s.pwc.power = .standby → u.pwc.wakeFlags.composition = true)) ∧
      (s.pwc.wakeRecord ≠ none → u.pwc.wakeRecord = s.pwc.wakeRecord) ∧
      ((x.state = .present ∧ m < 3) ∨ (x.state = .stale ∧ m < 8) ∨ x.state = .lost → OnlyChanges [.now, .clc] s u)

/-- O51. A poll cycle with no slot left to visit ends 21 ms after its last visit, in STANDBY with it, or after 21 ms
when it had none, and steps the counter; in ACTIVE the next follows (R35, R41). In STANDBY a cycle begins every 10 s
(R41). The hold-off timer's expiry starts a census when a trigger is pending, in ACTIVE with no census (R23). A
stray frame, and an answer whose exchange was cut short, change nothing but the moment the idle line counts from
(R18). The model's own choices here: logs 2, 27, 28, 29, 42. -/
def Obligations.CyclesHoldOffAndStrayFrames : Prop :=
  ∀ s : State, s.pwc.held = false →
    (∀ y endsAt, s.clc.census = none → s.clc.visit = none → s.clc.cycle = some y →
      (∀ j z, y.pos ≤ j → s.clc.table[j]? = some z → z.state = .lost ∧ s.clc.cycleCounter ≠ 0) →
      endsAt = max s.now (match y.ended with
        | some t => if s.pwc.power = .standby then t else t + 21000
        | none => y.start + 21000) →
      exec .pollCycleEnd s = .next (finish { s with
        now := endsAt
        clc := { s.clc with
          cycleCounter := (s.clc.cycleCounter + 1) % 8
          cycle := if s.pwc.power = .active then
            some { pos := 0, start := endsAt, ended := none, closing := false } else none } })) ∧
    (s.pwc.power = .standby →
      exec .standbyPollCycle s = .next (finish { s with
        now := max s.now s.clc.standbyCycle
        clc := { s.clc with
          standbyCycle := max s.now s.clc.standbyCycle + standbyCyclePeriod
          cycle := some (s.clc.cycle.getD
            { pos := 0, start := max s.now s.clc.standbyCycle, ended := none, closing := false }) } })) ∧
    (∀ d, s.clc.holdoff = some d →
      (s.clc.pendingTrigger = false ∨ s.pwc.power ≠ .active ∨ s.clc.census ≠ none →
        exec .holdoffExpiry s = .next (finish { s with
          now := max s.now d, clc := { s.clc with holdoff := none, pendingTrigger := false } })) ∧
      (s.clc.pendingTrigger = true → s.pwc.power = .active → s.clc.census = none →
        ∃ u, exec .holdoffExpiry s = .next (finish u) ∧ u.now = max s.now d ∧ u.clc.census = some emptyRun ∧
          u.clc.task = some .roll ∧ u.clc.holdoff = none ∧ u.clc.pendingTrigger = false ∧
          u.clc.table = s.clc.table ∧ u.svc = captureAborted s.svc ∧ OnlyChanges [.now, .clc, .svc, .hlc] s u)) ∧
    (∀ f : ChainFrame,
      exec (.strayChainFrame f) s = .next { s with clc := { s.clc with idleFrom := max s.clc.idleFrom s.now } } ∧
      ((∀ x closes, s.clc.line ≠ .window x closes) →
        exec (.chainAnswerComplete f) s =
          .next (finish { s with clc := { s.clc with idleFrom := max s.clc.idleFrom s.now } }) ∧
        exec .chainAnswerAbandon s =
          .next (finish { s with clc := { s.clc with idleFrom := max s.clc.idleFrom (s.now - chainIdle) } })))

/-- O52. A linger that runs out removes its RESOLVED entry and the list is re-evaluated (R133). The reconcile timer's
expiry stops it and makes a PENDING mirror DIVERGED (R141, R142). The model's own choice here: log 2. -/
def Obligations.TheTimersOfTheDisplay : Prop :=
  ∀ s : State, s.pwc.held = false →
    (∀ n e d, s.dsr.list.find? (fun e => e.id = n ∧ e.state = .resolved) = some e → e.linger = some (.running d) →
      ∃ u, exec (.lingerExpiry n) s = .next (finish u) ∧ u.now = max s.now d ∧
        u.dsr.list = (rebuildList s.params s.flt
          { s.dsr with list := s.dsr.list.filter fun x => x.id != n }).2.list ∧
        (∀ x ∈ u.dsr.list, x.id = n → x.state ≠ .resolved) ∧
        recordContents u.flt = recordContents s.flt ∧ OnlyChanges [.now, .flt, .dsr, .hlc] s u) ∧
    (∀ d, s.dsr.reconcile = some d →
      exec .reconcileExpiry s = .next (finish { s with
        now := max s.now d
        dsr := { s.dsr with
          reconcile := none, mirror := if s.dsr.mirror = .pending then .diverged else s.dsr.mirror }
        hlc := { s.hlc with
          changes := if s.dsr.mirror = .pending then addMatter .mirror s.hlc.changes else s.hlc.changes } }))

/-- O53. The capture window's expiry ends the capture INCOMPLETE (R157) and the release timer's the pending release
SEQUENCE (R161), each with its SERVICE-DONE. The SERVICE line falling turns service mode off, a capture or a pending
release ending ABORTED and a write going on (R151, R152); rising, it turns nothing on. The model's own choice here:
log 2. -/
def Obligations.ServiceTimersAndTheServiceLine : Prop :=
  ∀ s : State, s.pwc.held = false →
    (∀ k d, s.svc.state = .capturing → s.svc.capture = some k → s.svc.captureTimer = some d →
      exec .captureWindowExpiry s = .next (finish { s with
        now := max s.now d
        svc := { s.svc with
          state := .idle, captureTimer := none, sticky := { s.svc.sticky with incomplete := true } }
        hlc := s.hlc.enqueue (.serviceDone .commission (.subject k.target) .incomplete none) })) ∧
    (∀ r, s.svc.state = .releasePending → s.svc.release = some r →
      exec .releaseTimerExpiry s = .next (finish { s with
        now := max s.now r.expires
        svc := { s.svc with state := .idle, release := none, sticky := { s.svc.sticky with sequence := true } }
        hlc := s.hlc.enqueue (.serviceDone .release (.index r.index) .sequence none) })) ∧
    (s.svc.mode = false →
      exec .serviceLineFall s = .next { s with svc := { s.svc with line := false } }) ∧
    (s.svc.line = true → s.svc.mode = true →
      (s.svc.state = .idle →
        exec .serviceLineFall s = .next (finish { s with svc := { s.svc with line := false, mode := false } })) ∧
      (∀ k, s.svc.state = .capturing → s.svc.capture = some k →
        exec .serviceLineFall s = .next (finish { s with
          svc := { s.svc with
            line := false, mode := false, state := .idle, captureTimer := none
            sticky := { s.svc.sticky with aborted := true } }
          hlc := s.hlc.enqueue (.serviceDone .commission (.subject k.target) .aborted none) })) ∧
      (∀ r, s.svc.state = .releasePending → s.svc.release = some r →
        exec .serviceLineFall s = .next (finish { s with
          svc := { s.svc with
            line := false, mode := false, state := .idle, release := none
            sticky := { s.svc.sticky with aborted := true } }
          hlc := s.hlc.enqueue (.serviceDone .release (.index r.index) .aborted none) })) ∧
      (s.svc.state = .writing →
        exec .serviceLineFall s = .next (finish { s with
          svc := { s.svc with
            line := false, mode := false, sticky := { s.svc.sticky with aborted := true }
            write := s.svc.write.map fun w => { w with aborted := true } } }))) ∧
    exec .serviceLineRise s = .next { s with svc := { s.svc with line := true } }

/-! ### The arithmetic of judgement, learning, faults and rank -/

/-- O54. The measured current, the adjusted baselines and the three levels of a judgement, with the bounds the rules
give (R86, R87, R88). -/
def Obligations.CurrentsBaselinesAndThresholds : Prop :=
  (∀ o : Offer,
    (o.zero < o.mean → measured o = o.mean - o.zero) ∧ (o.mean ≤ o.zero → measured o = 0) ∧
    (o.mean ≤ 30000 → o.zero ≤ 500 → measured o ≤ 30000 - o.zero) ∧ (o.zero = 0 → measured o = o.mean) ∧
    (∀ b, measured { o with saturated := b } = measured o)) ∧
  (∀ (v : Nat) (b : Baseline),
    (b.cls = .regulated → adjusted v b = min b.nominal 30000) ∧
    (b.cls = .filament → adjusted v b = min ((2 * (b.nominal * v) + b.vref) / (2 * b.vref)) 30000) ∧
    (b.nominal = 0 → 0 < b.vref → adjusted v b = 0) ∧
    (1 ≤ b.nominal → 16000 ≤ v → v ≤ 32000 → 16000 ≤ b.vref → b.vref ≤ 32000 → 1 ≤ adjusted v b) ∧
    (b.nominal ≤ 20000 → 16000 ≤ v → v ≤ 32000 → 16000 ≤ b.vref → b.vref ≤ 32000 → b.cls = .filament →
      (2 * (b.nominal * v) + b.vref) / (2 * b.vref) ≤ 40000 ∧
      (30000 < (2 * (b.nominal * v) + b.vref) / (2 * b.vref) → 15000 < b.nominal ∧ b.vref < v)) ∧
    (∀ t : Tracked, t.base.state ≠ .known → knownBase (some t) = none)) ∧
  (∀ (l : Levels) (e : Nat),
    l.zero = l.factor * l.tAbs ∧
    l.deficit e = l.factor * max l.tAbs ((e * l.tPm + 999) / 1000) ∧
    l.excess e = l.factor * max l.tAbs ((e * l.tOver + 999) / 1000) ∧
    l.deficit 0 = l.zero ∧ l.excess 0 = l.zero ∧
    (l.factor = 1 → 10 ≤ l.tAbs → l.tAbs ≤ 1000 → l.tPm ≤ 500 → l.tOver ≤ 1000 → e ≤ 30000 →
      10 ≤ l.deficit e ∧ l.deficit e ≤ 15000 ∧ 10 ≤ l.excess e ∧ l.excess e ≤ 30000) ∧
    (l.factor ≤ 8 → l.tAbs ≤ 1000 → l.tPm ≤ 500 → l.tOver ≤ 1000 → e ≤ 30000 →
      l.deficit e ≤ 120000 ∧ l.excess e ≤ 240000) ∧
    (l.factor = 8 → l.tAbs ≤ 1000 → (l.tPm = 500 → l.deficit 30000 = 120000) ∧
      (l.tOver = 1000 → l.excess 30000 = 240000)) ∧
    (∀ m : Nat, e ≤ 30000 → m ≤ 30000 →
      (30000 < l.deficit e → (e : Int) - (m : Int) < (l.deficit e : Int)) ∧
      (30000 < l.excess e → (m : Int) - (e : Int) < (l.excess e : Int))))

/-- O55. A single rule matches with EQUAL when every item of its mask is on if it is in the value and off if it is not,
and with DIFFERENT when at least one item of the mask is in the other state (R64). A rule is a head, a member of the
head that names it, or an orphan (R65); a head's set matches for a circuit when the head and every rule it names
match, none of them breaking the set (R66, R67); and an offer's action is HOLD when a HOLD set matches, else that of
the lowest matching head of action JUDGE or WIDEN, else JUDGE (R68, R69). The model's own choice here: log 15. -/
def Obligations.ARuleMatchesItsItems : Prop :=
  (∀ (r : Rule) (w : FunctionWord),
    (r.sense = .equal →
      (ruleMatches r w = true ↔ ∀ n, n < 16 → r.mask.getLsbD n = true → w.getLsbD n = r.value.getLsbD n)) ∧
    (r.sense = .different →
      (ruleMatches r w = true ↔ ∃ n, n < 16 ∧ r.mask.getLsbD n = true ∧ w.getLsbD n ≠ r.value.getLsbD n)) ∧
    (r.mask = 0 → (r.sense = .equal → ruleMatches r w = true) ∧ (r.sense = .different → ruleMatches r w = false)) ∧
    (∀ b, ruleMatches { r with enabled := b } w = ruleMatches r w)) ∧
  ∀ (rules : List Rule) (w : FunctionWord), rules.length = 32 →
    (∀ (n h : Nat) (r head : Rule), rules[n]? = some r → h = r.head → rules[h]? = some head →
      (h = n → roleOf rules n = .head) ∧
      (h ≠ n → head.head = h → head.members.getLsbD n = true → roleOf rules n = .member h) ∧
      (h ≠ n → head.head ≠ h ∨ head.members.getLsbD n = false → roleOf rules n = .orphan)) ∧
    (∀ (h : Nat) (c : Circuit) (head : Rule), rules[h]? = some head →
      (setMatches rules w h c = true ↔
        head.head = h ∧ head.circuits.getLsbD c.val = true ∧ head.enabled = true ∧ ruleMatches head w = true ∧
          ∀ m r, rules[m]? = some r → head.members.getLsbD m = true → m ≠ h →
            r.enabled = true ∧ r.head = h ∧ ruleMatches r w = true)) ∧
    (∀ c : Circuit,
      ((∃ h r, rules[h]? = some r ∧ r.action = .hold ∧ setMatches rules w h c = true) →
        chooseAction rules w c = (.hold, 1)) ∧
      ((∀ h r, rules[h]? = some r → r.action = .hold → setMatches rules w h c = false) →
        (∀ h r, rules[h]? = some r → setMatches rules w h c = true → r.action = .judge ∨ r.action = .widen →
          (∀ g q, g < h → rules[g]? = some q → setMatches rules w g c = true →
            q.action ≠ .judge ∧ q.action ≠ .widen) →
          chooseAction rules w c = if r.action = .widen then (.widen, r.param) else (.judge, 1)) ∧
        ((∀ h r, rules[h]? = some r → setMatches rules w h c = true → r.action ≠ .judge ∧ r.action ≠ .widen) →
          chooseAction rules w c = (.judge, 1))))

/-- O56. The outcome of a REPORTED slot by the first line of R91 that applies when its baseline is KNOWN, on the report
alone when it is untracked or COMMISSIONED and not KNOWN, and none when it is OPEN and not KNOWN (R92). The levels
are those of R88, z the zero level. -/
def Obligations.AReportedSlotIsJudgedOnItsReport : Prop :=
  ∀ (l : Levels) (c : Circuit) (volts : Nat) (v : SlotView) (r : Report),
    (∀ t, v.track = some t → t.base.state = .known →
      ∃ e i z th thO : Int, e = adjusted volts t.base ∧ i = r.current.get c ∧ z = l.zero ∧
        th = l.deficit (adjusted volts t.base) ∧ thO = l.excess (adjusted volts t.base) ∧
        nodeVerdict l c volts v r = some
          { key := .lamp (.slot v.slot) c, identity := some v.identity, expected := adjusted volts t.base
            deficit := e - i
            kind :=
              if r.energized.getLsbD c.val = false then some .unitLost
              else if i ≤ z ∧ 2 * z < e then some .unitLost
              else if th ≤ e - i ∨ r.outage.get c ≠ 0 then some .outage
              else if thO ≤ i - e then some .overload
              else none }) ∧
    (v.track = none ∨ (∃ t, v.track = some t ∧ t.base.state ≠ .known ∧ t.lock = .commissioned) →
      nodeVerdict l c volts v r = some
        { key := .lamp (.slot v.slot) c, identity := some v.identity, expected := 0, deficit := 0
          kind :=
            if r.energized.getLsbD c.val = false then some .unitLost
            else if r.outage.get c ≠ 0 then some .outage
            else none }) ∧
    (∀ t, v.track = some t → t.base.state ≠ .known → t.lock = .opened → nodeVerdict l c volts v r = none)

/-- O57. The pool outcome by the first line of R95 that applies. A judgement's residual is the measured current less the
currents the REPORTED slots report; below the negative zero level it is DISAGREE and the pool is preempted, with its
expectation where every pool baseline is KNOWN (R85, R93). The pool's expectation is the sum of its members'
adjusted baselines, at most 30000 mA, and its judgement is made when each of them is KNOWN (R94). A significant pool
outcome is attributed to the one POOL slot that expects current when the remainder expects none, else to REMAINDER
(R96); a GOOD one reaches every key the pool judged (R97). The batch is the slots' outcomes in slot order, DISAGREE,
and the pool's (R99). The model's own choice here: log 15. -/
def Obligations.ThePoolIsJudgedByItsResidual : Prop :=
  (∀ (l : Levels) (r : Int) (e : Nat) (m : Int), m = max r 0 →
    poolKind l r e =
      (if r ≤ (l.zero : Int) ∧ l.deficit e ≤ e then some .unitLost
      else if (l.deficit e : Int) ≤ (e : Int) - m then some .outage
      else if (l.excess e : Int) ≤ m - (e : Int) then some .overload
      else none) ∧
    (poolKind l r e = some .unitLost → l.zero ≤ e) ∧
    (0 < l.zero → poolKind l r 0 = some .overload ∨ poolKind l r 0 = none)) ∧
  ∀ (l : Levels) (o : Offer) (views : List SlotView) (rem : Option Tracked),
    ∃ reported pool sum r share e first j, j = judgement l o views rem ∧
      reported = (views.filter fun v => v.state = .present && v.report.isSome) ∧
      pool = (views.filter fun v => v.state != .present || v.report.isNone) ∧
      sum = (reported.map fun v => v.report.elim 0 fun x => x.current.get o.circuit).sum ∧
      r = (measured o : Int) - (sum : Int) ∧ j.residual = r ∧
      share = (fun t : Option Tracked =>
        match t with
        | some k => if k.base.state = .known then adjusted o.volts k.base else 0
        | none => 0) ∧
      e = min (share rem + (pool.map fun v => share v.track).sum) 30000 ∧
      first = reported.filterMap (fun v => v.report.bind (nodeVerdict l o.circuit o.volts v)) ++
        [{ key := .disagree o.circuit, kind := if r < -(l.zero : Int) then some .disagree else none, identity := none
           expected := min sum 30000, deficit := (min sum 30000 : Nat) - (measured o : Int) }] ∧
      (r < -(l.zero : Int) → j.batch = first ∧ j.pool = .preempted ∧ j.subject = none ∧
        ((rem.any (fun t => t.base.state = .known) = true ∧
            ∀ v ∈ pool, v.track.any (fun t => t.base.state = .known) = true) →
          j.expectation = some e) ∧
        ((rem.all (fun t => t.base.state != .known) = true ∨
            ∃ v ∈ pool, v.track.all (fun t => t.base.state != .known) = true) →
          j.expectation = none)) ∧
      (-(l.zero : Int) ≤ r →
        (rem.all (fun t => t.base.state != .known) = true ∨
            (∃ v ∈ pool, v.track.all (fun t => t.base.state != .known) = true) →
          j.batch = first ∧ j.pool = .notMade ∧ j.expectation = none ∧ j.subject = none) ∧
        (rem.any (fun t => t.base.state = .known) = true →
          (∀ v ∈ pool, v.track.any (fun t => t.base.state = .known) = true) →
          ∃ t, j.subject = some t ∧ j.expectation = some e ∧
            (∀ v, pool.filter (fun v => share v.track != 0) = [v] → share rem = 0 → t = .slot v.slot) ∧
            ((pool.filter fun v => share v.track != 0).length ≠ 1 ∨ share rem ≠ 0 → t = .remainder) ∧
            (∀ k, poolKind l r e = some k →
              j.batch = first ++ [{ key := .lamp t o.circuit, kind := some k, identity := slotIdentity views t
                                    expected := e, deficit := (e : Int) - max r 0 }] ∧
              (k = .outage → j.pool = .outage) ∧ (k = .unitLost → j.pool = .unitLost) ∧
              (k = .overload → j.pool = .overload)) ∧
            (poolKind l r e = none → j.pool = .good ∧
              j.batch = first ++ (pool.map (fun v : SlotView => Subject.slot v.slot) ++ [Subject.remainder]).map fun t =>
                { key := .lamp t o.circuit, kind := none, identity := slotIdentity views t, expected := e
                  deficit := (e : Int) - max r 0 })))

/-- O58. One outcome meets the table by the debounce machine: no record, SUSPECT, ACTIVE or HEALING (R106 to R111, R113,
R118). A record takes the outcome's figures whatever it is, and every other position stays. A batch is its outcomes
in their order (R106). The NEW entry of a record removed HEALED becomes RESOLVED, and any other entry of a removed
record goes (R131, R132); a live entry follows its record's kind, acknowledged flag and slot, and a change of any of
them steps its version once, 15 going to 0 (R129, R130). -/
def Obligations.AnOutcomeMeetsItsRecord : Prop :=
  ∀ (p : Params) (v : Verdict) (f : Flt),
    (findRecord f v.key = none → v.kind = none → applyVerdict p v f = (f, [])) ∧
    (∀ k, findRecord f v.key = none → v.kind = some k →
      (emptyPosition f = none → applyVerdict p v f = ({ f with saturated := true }, [])) ∧
      (∀ i r, emptyPosition f = some i → r =
          { key := v.key, identity := v.identity, kind := k, state := .suspect, suspect := 1, heal := 0
            sequence := none, acked := false, entryId := none, lastExpected := v.expected
            lastDeficit := v.deficit : FaultRecord } →
        (1 < p.confirm → applyVerdict p v f = ({ f with records := f.records.set i (some r) }, [])) ∧
        (p.confirm ≤ 1 → ∃ q, q = { r with state := .active, sequence := some (f.activation + 1) } ∧
          applyVerdict p v f =
            ({ f with records := f.records.set i (some q), activation := f.activation + 1 }, [.activated q])))) ∧
    (∀ i r0 r, findRecord f v.key = some i → recordAt f i = some r0 →
      r = { r0 with lastExpected := v.expected, lastDeficit := v.deficit } →
      (∀ k, v.kind = some k →
        (r.state = .suspect → r.suspect + 1 < p.confirm →
          applyVerdict p v f =
            ({ f with records := f.records.set i (some { r with kind := k, suspect := r.suspect + 1 }) }, [])) ∧
        (r.state = .suspect → p.confirm ≤ r.suspect + 1 →
          ∃ q, q = { r with kind := k, suspect := r.suspect + 1, state := .active, heal := 0, acked := false
                            sequence := some (f.activation + 1) } ∧
            applyVerdict p v f =
              ({ f with records := f.records.set i (some q), activation := f.activation + 1 }, [.activated q])) ∧
        (r.state = .active →
          applyVerdict p v f =
            ({ f with
              records := f.records.set i (some { r with kind := k, acked := r.acked && decide (r.kind = k) }) }, [])) ∧
        (r.state = .healing →
          ∃ q, q = { r with kind := k, acked := r.acked && decide (r.kind = k), state := .active, heal := 0 } ∧
            applyVerdict p v f = ({ f with records := f.records.set i (some q) }, [.activated q]))) ∧
      (v.kind = none →
        (r.state = .suspect → (applyVerdict p v f).2 = [.removed r false]) ∧
        (r.state = .active → 1 < p.heal →
          applyVerdict p v f = ({ f with records := f.records.set i (some { r with state := .healing, heal := 1 }) }, [])) ∧
        (r.state = .healing → r.heal + 1 < p.heal →
          applyVerdict p v f = ({ f with records := f.records.set i (some { r with heal := r.heal + 1 }) }, [])) ∧
        ((r.state = .active ∧ p.heal ≤ 1) ∨ (r.state = .healing ∧ p.heal ≤ r.heal + 1) →
          (applyVerdict p v f).2 = [.removed r true]) ∧
        (r.state = .suspect ∨ (r.state = .active ∧ p.heal ≤ 1) ∨ (r.state = .healing ∧ p.heal ≤ r.heal + 1) →
          (applyVerdict p v f).1.records = f.records.set i none ∧
          (applyVerdict p v f).1.activation = f.activation ∧
          (applyVerdict p v f).1.saturated =
            (f.saturated && !decide (((f.records.set i none).filter Option.isSome).length < 32))))) ∧
    (applyBatch p [] f = (f, []) ∧
      ∀ vs : List Verdict,
        (applyBatch p (v :: vs) f).1 = (applyBatch p vs (applyVerdict p v f).1).1 ∧
        (applyBatch p (v :: vs) f).2 = (applyVerdict p v f).2 ++ (applyBatch p vs (applyVerdict p v f).1).2) ∧
    (∀ (timer : Countdown) (r : FaultRecord) (healed : Bool) (es : List FltEffect) (list : List DisplayEntry),
      retireEntries timer [] list = list ∧
      retireEntries timer (.activated r :: es) list = retireEntries timer es list ∧
      retireEntries timer (.removed r healed :: es) list = retireEntries timer es (list.filterMap fun e =>
        if e.state = .resolved ∨ r.entryId ≠ some e.id then some e
        else if healed = true ∧ e.state = .new then
          some { e with
            state := .resolved, version := (e.version + 1) % 16, linger := some timer
            subject := (match r.key with
              | .lamp t _ => some t
              | .nodeLost n => some (.slot n)
              | .disagree _ | .cadence _ => none) }
        else none)) ∧
    (∀ (records : List (Option FaultRecord)) (e : DisplayEntry),
      (e.state = .resolved → syncEntry records e = e) ∧
      ((∀ x, some x ∈ records → x.entryId ≠ some e.id) → syncEntry records e = e) ∧
      (∀ x d t, e.state ≠ .resolved → (records.filterMap id).find? (fun r => r.entryId = some e.id) = some x →
        d = (if x.acked then DisplayState.acked else .new) →
        t = (match x.key with
          | .lamp t _ => some t
          | .nodeLost n => some (.slot n)
          | .disagree _ | .cadence _ => none) →
        (e.kind = x.kind → e.state = d → e.subject = t → syncEntry records e = e) ∧
        (e.kind ≠ x.kind ∨ e.state ≠ d ∨ e.subject ≠ t →
          syncEntry records e =
            { e with kind := x.kind, state := d, subject := t, version := (e.version + 1) % 16 })))

/-- O59. A learning value: an UNKNOWN baseline begins a run, a value further than T_abs from the run's first restarts
it, any other joins it, and the L-th completes it KNOWN with the two rounded means, the nominal capped at 20000 (R54
to R56). A COMMISSIONED entry and a KNOWN baseline take none. A capture record takes its values in the same way
(R156). A report qualifies when it arrived after the settle end and is at most 300 ms old (R40); a unit is usable
when tracked and PRESENT with a qualifying report that shows the circuit energized and no outage; the remainder is
usable when every slot is PRESENT with a qualifying report and the residual is not negative (R54, R90, R100). A
hand-over gives a serving entry's index, lock and baseline as it is read (R45, R53). The model's own choices here:
logs 33, 43. -/
def Obligations.ALearningValueJoinsItsRun : Prop :=
  ∀ (c : Circuit) (tAbs l value volts : Nat) (cls : LampClass) (e : Entry), 1 ≤ l →
    ((e.lock = .commissioned ∨ (e.cells.get c).base.state = .known) →
      learnEntry c tAbs l value volts cls e = e) ∧
    (∀ x r : LoadCell, e.lock = .opened → x = e.cells.get c → x.base.state ≠ .known →
      r.learn = (if x.base.state = .unknown ∨ x.learn.count = 0 ∨
          (tAbs : Int) < |(value : Int) - (x.learn.first : Int)| then
          { count := 1, first := value, sumValue := value, sumVolt := volts }
        else { count := x.learn.count + 1, first := x.learn.first, sumValue := x.learn.sumValue + value
               sumVolt := x.learn.sumVolt + volts }) →
      (r.learn.count < l →
        learnEntry c tAbs l value volts cls e =
          { e with cells := (e.cells.set c
            { base := { state := .learning, cls := .filament, nominal := 0, vref := 24000 }, learn := r.learn }) }) ∧
      (l ≤ r.learn.count →
        learnEntry c tAbs l value volts cls e =
          { e with cells := (e.cells.set c
            { base := { state := .known, cls := cls, nominal := min ((2 * r.learn.sumValue + l) / (2 * l)) 20000
                        vref := (2 * r.learn.sumVolt + l) / (2 * l) }
              learn := { count := 0, first := 0, sumValue := 0, sumVolt := 0 } }) })) ∧
    (∀ (settleEnd : Option Nat) (time : Nat) (x : LatestReport),
      qualifies settleEnd time x = true ↔ ∃ d, settleEnd = some d ∧ d < x.arrival ∧ time ≤ x.arrival + 300000) ∧
    (∀ (s : State) (o : Offer) (n : Nat) (x : Slot), s.clc.table[n]? = some x →
      ∃ v, (slotViews s o)[n]? = some v ∧ v.slot = n + 1 ∧ v.identity = x.identity ∧ v.state = x.state ∧
        v.lamps = x.lamps ∧
        (∀ r, v.report = some r ↔ ∃ y, x.latest = some y ∧ y.report = r ∧ qualifies o.settleEnd o.time y = true) ∧
        (∀ i e, servingIndex s.ldt (.slot (n + 1)) = some i → entryAt s.ldt i = some e →
          HandedAs s.params o.circuit i e v.track) ∧
        (servingIndex s.ldt (.slot (n + 1)) = none → v.track = none)) ∧
    (∀ s : State,
      (∀ i e, servingIndex s.ldt .remainder = some i → entryAt s.ldt i = some e →
        HandedAs s.params c i e (remainderView s c)) ∧
      (servingIndex s.ldt .remainder = none → remainderView s c = none)) ∧
    (∀ (v : SlotView), slotUsable c v = true ↔
      v.track ≠ none ∧ v.state = .present ∧
        ∃ r, v.report = some r ∧ r.outage.get c = 0 ∧ r.energized.getLsbD c.val = true) ∧
    (∀ (views : List SlotView) (rem : Option Tracked) (r : Int), remainderUsable views rem r = true ↔
      rem ≠ none ∧ (∀ v ∈ views, v.report ≠ none ∧ v.state = .present) ∧ 0 ≤ r) ∧
    (∀ (p : Params) (views : List SlotView) (rem : Option Tracked) (r : Int),
      (∀ n v x, views.find? (fun v => v.slot = n) = some v → slotUsable c v = true → v.report = some x →
        targetValue p c views rem r (.slot n) = some (x.current.get c, x.cls.get c)) ∧
      (∀ n, (∀ v, views.find? (fun v => v.slot = n) = some v → slotUsable c v = false) →
        targetValue p c views rem r (.slot n) = none) ∧
      targetValue p c views rem r .remainder =
        if remainderUsable views rem r = true then some (r.toNat, p.legacyClass.get c) else none) ∧
    (∀ (p : Params) (k : CaptureRecord),
      (k.circuit ≠ c ∨ k.captured ≠ none → captureValue p c value volts cls k = k) ∧
      (∀ q : CaptureRecord, k.circuit = c → k.captured = none →
        q = (if k.count = 0 ∨ (p.tAbs.get c : Int) < |(value : Int) - (k.first : Int)| then
            { k with count := 1, first := value, sumValue := value, sumVolt := volts }
          else { k with count := k.count + 1, sumValue := k.sumValue + value, sumVolt := k.sumVolt + volts }) →
        (q.count < p.learnCount → captureValue p c value volts cls k = q) ∧
        (p.learnCount ≤ q.count →
          captureValue p c value volts cls k =
            { q with
              captured :=
                some { nominal := min ((2 * q.sumValue + p.learnCount) / (2 * p.learnCount)) 20000, cls := cls
                       vref := (2 * q.sumVolt + p.learnCount) / (2 * p.learnCount) } })))

/-- O60. Candidates rank by severity, greatest first, then by sequence, smallest first, then live before RESOLVED, then
by position or id; this is one total order, and the same candidates rank the same however they come (R125). A
re-evaluation takes the first eight: an entry that stays keeps all but its shown severity, one that returns takes
its record's id, each new one in order of rank the next id not in use from the counter, which goes on behind it, at
version 0, and the overflow counts the live ones not taken (R126, R127, R128). In ACTIVE a list that has changed
goes out (R137). A telltale is off with no live entry of its circuits, flashing with a NEW one among them, and
otherwise steady (R136). The model's own choice here: log 13. -/
def Obligations.CandidatesStandInOneOrder : Prop :=
  (∀ a b : Candidate,
    (b.severity < a.severity → ranksBefore a b = true) ∧
    (a.severity = b.severity → a.sequence < b.sequence → ranksBefore a b = true) ∧
    (a.severity = b.severity → a.sequence = b.sequence → a.resolved = false → b.resolved = true →
      ranksBefore a b = true) ∧
    (a.severity = b.severity → a.sequence = b.sequence → a.resolved = b.resolved → a.index < b.index →
      ranksBefore a b = true) ∧
    (ranksBefore a b = true ∨ ranksBefore b a = true) ∧
    (ranksBefore a b = true → ranksBefore b a = true → a = b) ∧
    (∀ d, ranksBefore a b = true → ranksBefore b d = true → ranksBefore a d = true)) ∧
  (∀ l m : List Candidate, l.Perm m →
    l.insertionSort (fun a b => ranksBefore a b = true) = m.insertionSort (fun a b => ranksBefore a b = true)) ∧
  (∀ (p : Params) (f : Flt) (d : Dsr),
    ∃ (ranked : List Candidate) (f' : Flt) (d' : Dsr), (f', d') = rebuildList p f d ∧
      ranked.Pairwise (fun a b => ranksBefore a b = true) ∧
      ranked.Perm (((f.records.zipIdx.filterMap fun x => x.1.bind fun r =>
          if r.state = .suspect then none
          else some { severity := recordSeverity p r, sequence := (r.sequence.getD 0).toNat, resolved := false
                      index := x.2 })) ++
        (d.list.filter fun e => e.state = .resolved).map fun e =>
          { severity := 0, sequence := e.sequence, resolved := true, index := e.id }) ∧
      d'.list.length = min ranked.length 8 ∧
      d'.overflow = ((ranked.drop 8).filter fun k => !k.resolved).length ∧
      recordContents f' = recordContents f ∧ f'.activation = f.activation ∧ f'.saturated = f.saturated ∧
      d' = { d with list := d'.list, overflow := d'.overflow, idCounter := d'.idCounter } ∧
      (∀ i, (∀ k ∈ ranked.take 8, k.resolved = true ∨ k.index ≠ i) → recordAt f' i = recordAt f i) ∧
      (∀ (n : Nat) (k : Candidate), (ranked.take 8)[n]? = some k → k.resolved = true →
        d'.list[n]? = d.list.find? fun e => decide (e.state = .resolved ∧ e.id = k.index)) ∧
      (∀ (n : Nat) (k : Candidate), (ranked.take 8)[n]? = some k → k.resolved = false →
        ∃ r id, recordAt f k.index = some r ∧ recordAt f' k.index = some { r with entryId := some id } ∧
          (∀ m, r.entryId = some m → id = m ∧
            (∀ e, d.list.find? (fun e => decide (e.state ≠ .resolved ∧ e.id = id)) = some e →
              d'.list[n]? = some { e with severity := recordSeverity p r }) ∧
            (d.list.find? (fun e => decide (e.state ≠ .resolved ∧ e.id = id)) = none →
              d'.list[n]? = some (entryOf p id r))) ∧
          (r.entryId = none → d'.list[n]? = some (entryOf p id r) ∧
            (f.records.length = 32 → 1 ≤ d.idCounter → d.idCounter ≤ 255 →
              1 ≤ id ∧ id ≤ 255 ∧ (∀ x, some x ∈ f.records → x.entryId ≠ some id) ∧
              ∀ q ∈ ranked.take 8, q.resolved = true → q.index ≠ id))) ∧
      (∃ (fresh : List Candidate) (ids used : List Nat) (counter : Nat → Nat),
        fresh = ((ranked.take 8).filter fun k =>
          !k.resolved && (recordAt f k.index).any fun r => r.entryId.isNone) ∧
        used = ((ranked.take 8).filter (·.resolved)).map (·.index) ++
          f.records.filterMap (fun x => x.bind (·.entryId)) ∧
        counter 0 = d.idCounter ∧
        (∀ n id, ids[n]? = some id →
          id = freeId (used ++ ids.take n) 255 (counter n) ∧ counter (n + 1) = if 255 ≤ id then 1 else id + 1) ∧
        ids.length = fresh.length ∧ d'.idCounter = counter ids.length ∧
        ∀ (n : Nat) (k : Candidate) (id : Nat), fresh[n]? = some k → ids[n]? = some id →
          (recordAt f' k.index).bind (·.entryId) = some id)) ∧
  (∀ (used : List Nat) (n : Nat), 1 ≤ n → n ≤ 255 → used.length < 255 →
    freeId used 255 n ∉ used ∧
      ∃ k, k < 255 ∧ freeId used 255 n = (n - 1 + k) % 255 + 1 ∧ ∀ j, j < k → (n - 1 + j) % 255 + 1 ∈ used) ∧
  (∀ (before : ListView) (s : State),
    ∃ u, u = { s with flt := (rebuildList s.params s.flt s.dsr).1, dsr := (rebuildList s.params s.flt s.dsr).2 } ∧
      (s.pwc.power = .active → (u.dsr.list.map fun e => (e.id, e.version, e.sequence), u.dsr.overflow) ≠ before →
        reevaluate before s = sendSnapshot u) ∧
      (s.pwc.power ≠ .active ∨ (u.dsr.list.map fun e => (e.id, e.version, e.sequence), u.dsr.overflow) = before →
        reevaluate before s = u)) ∧
  (∀ (list mine : List DisplayEntry) (look : DisplayEntry → Prop) (t : Telltale),
    (((∀ e, look e ↔ e.circuit = some 0) ∧ t = (telltales list).left) ∨
      ((∀ e, look e ↔ e.circuit = some 1) ∧ t = (telltales list).right) ∨
      ((∀ e, look e ↔ e.circuit ≠ some 0 ∧ e.circuit ≠ some 1) ∧ t = (telltales list).general)) →
    (∀ e, e ∈ mine ↔ e ∈ list ∧ e.state ≠ .resolved ∧ look e) →
    (t = .off ↔ mine = []) ∧ (t = .flash ↔ ∃ e ∈ mine, e.state = .new) ∧
      (t = .steady ↔ mine ≠ [] ∧ ∀ e ∈ mine, e.state ≠ .new))

end Statements
end

