-- ==== Sys2Proof/Laws/State.lean ====
section
/-!
SUPPORT. What each update of the state leaves as it was, one lemma for each update and field, and the value of the
fields it writes.
-/
namespace Sys2Proof.Machine

/-! ### The transmit queue touches two fields of the Host Link Controller -/

@[simp] theorem Hlc.pump_wire (h : Hlc) : h.pump.wire = h.wire := by
  unfold Hlc.pump; split <;> rfl
@[simp] theorem Hlc.enqueue_wire (r : TxRecord) (h : Hlc) : (h.enqueue r).wire = h.wire := by
  simp [Hlc.enqueue]
@[simp] theorem Hlc.pump_receiver (h : Hlc) : h.pump.receiver = h.receiver := by
  unfold Hlc.pump; split <;> rfl
@[simp] theorem Hlc.enqueue_receiver (r : TxRecord) (h : Hlc) : (h.enqueue r).receiver = h.receiver := by
  simp [Hlc.enqueue]
@[simp] theorem Hlc.pump_processing (h : Hlc) : h.pump.processing = h.processing := by
  unfold Hlc.pump; split <;> rfl
@[simp] theorem Hlc.enqueue_processing (r : TxRecord) (h : Hlc) : (h.enqueue r).processing = h.processing := by
  simp [Hlc.enqueue]
@[simp] theorem Hlc.pump_buffer (h : Hlc) : h.pump.buffer = h.buffer := by
  unfold Hlc.pump; split <;> rfl
@[simp] theorem Hlc.enqueue_buffer (r : TxRecord) (h : Hlc) : (h.enqueue r).buffer = h.buffer := by
  simp [Hlc.enqueue]
@[simp] theorem Hlc.pump_word (h : Hlc) : h.pump.word = h.word := by
  unfold Hlc.pump; split <;> rfl
@[simp] theorem Hlc.enqueue_word (r : TxRecord) (h : Hlc) : (h.enqueue r).word = h.word := by
  simp [Hlc.enqueue]
@[simp] theorem Hlc.pump_previous (h : Hlc) : h.pump.previous = h.previous := by
  unfold Hlc.pump; split <;> rfl
@[simp] theorem Hlc.enqueue_previous (r : TxRecord) (h : Hlc) : (h.enqueue r).previous = h.previous := by
  simp [Hlc.enqueue]
@[simp] theorem Hlc.pump_lastTell (h : Hlc) : h.pump.lastTell = h.lastTell := by
  unfold Hlc.pump; split <;> rfl
@[simp] theorem Hlc.enqueue_lastTell (r : TxRecord) (h : Hlc) : (h.enqueue r).lastTell = h.lastTell := by
  simp [Hlc.enqueue]
@[simp] theorem Hlc.pump_stale (h : Hlc) : h.pump.stale = h.stale := by
  unfold Hlc.pump; split <;> rfl
@[simp] theorem Hlc.enqueue_stale (r : TxRecord) (h : Hlc) : (h.enqueue r).stale = h.stale := by
  simp [Hlc.enqueue]
@[simp] theorem Hlc.pump_firstTell (h : Hlc) : h.pump.firstTell = h.firstTell := by
  unfold Hlc.pump; split <;> rfl
@[simp] theorem Hlc.enqueue_firstTell (r : TxRecord) (h : Hlc) : (h.enqueue r).firstTell = h.firstTell := by
  simp [Hlc.enqueue]
@[simp] theorem Hlc.pump_silent (h : Hlc) : h.pump.silent = h.silent := by
  unfold Hlc.pump; split <;> rfl
@[simp] theorem Hlc.enqueue_silent (r : TxRecord) (h : Hlc) : (h.enqueue r).silent = h.silent := by
  simp [Hlc.enqueue]
@[simp] theorem Hlc.pump_silence (h : Hlc) : h.pump.silence = h.silence := by
  unfold Hlc.pump; split <;> rfl
@[simp] theorem Hlc.enqueue_silence (r : TxRecord) (h : Hlc) : (h.enqueue r).silence = h.silence := by
  simp [Hlc.enqueue]
@[simp] theorem Hlc.pump_oversize (h : Hlc) : h.pump.oversize = h.oversize := by
  unfold Hlc.pump; split <;> rfl
@[simp] theorem Hlc.enqueue_oversize (r : TxRecord) (h : Hlc) : (h.enqueue r).oversize = h.oversize := by
  simp [Hlc.enqueue]
@[simp] theorem Hlc.pump_broken (h : Hlc) : h.pump.broken = h.broken := by
  unfold Hlc.pump; split <;> rfl
@[simp] theorem Hlc.enqueue_broken (r : TxRecord) (h : Hlc) : (h.enqueue r).broken = h.broken := by
  simp [Hlc.enqueue]
@[simp] theorem Hlc.pump_badCrc (h : Hlc) : h.pump.badCrc = h.badCrc := by
  unfold Hlc.pump; split <;> rfl
@[simp] theorem Hlc.enqueue_badCrc (r : TxRecord) (h : Hlc) : (h.enqueue r).badCrc = h.badCrc := by
  simp [Hlc.enqueue]
@[simp] theorem Hlc.pump_overrun (h : Hlc) : h.pump.overrun = h.overrun := by
  unfold Hlc.pump; split <;> rfl
@[simp] theorem Hlc.enqueue_overrun (r : TxRecord) (h : Hlc) : (h.enqueue r).overrun = h.overrun := by
  simp [Hlc.enqueue]
@[simp] theorem Hlc.pump_changes (h : Hlc) : h.pump.changes = h.changes := by
  unfold Hlc.pump; split <;> rfl
@[simp] theorem Hlc.enqueue_changes (r : TxRecord) (h : Hlc) : (h.enqueue r).changes = h.changes := by
  simp [Hlc.enqueue]

/-! ### mark -/

@[simp] theorem mark_now (m : Matter) (s : State) : (mark m s).now = s.now := rfl
@[simp] theorem mark_freeCount (m : Matter) (s : State) : (mark m s).freeCount = s.freeCount := rfl
@[simp] theorem mark_params (m : Matter) (s : State) : (mark m s).params = s.params := rfl
@[simp] theorem mark_sfe (m : Matter) (s : State) : (mark m s).sfe = s.sfe := rfl
@[simp] theorem mark_clc (m : Matter) (s : State) : (mark m s).clc = s.clc := rfl
@[simp] theorem mark_ldt (m : Matter) (s : State) : (mark m s).ldt = s.ldt := rfl
@[simp] theorem mark_jge (m : Matter) (s : State) : (mark m s).jge = s.jge := rfl
@[simp] theorem mark_flt (m : Matter) (s : State) : (mark m s).flt = s.flt := rfl
@[simp] theorem mark_dsr (m : Matter) (s : State) : (mark m s).dsr = s.dsr := rfl
@[simp] theorem mark_svc (m : Matter) (s : State) : (mark m s).svc = s.svc := rfl
@[simp] theorem mark_stc (m : Matter) (s : State) : (mark m s).stc = s.stc := rfl
@[simp] theorem mark_pwc (m : Matter) (s : State) : (mark m s).pwc = s.pwc := rfl
@[simp] theorem mark_pending (m : Matter) (s : State) : (mark m s).pending = s.pending := rfl
@[simp] theorem mark_hlc_wire (m : Matter) (s : State) : (mark m s).hlc.wire = s.hlc.wire := rfl
@[simp] theorem mark_hlc_receiver (m : Matter) (s : State) : (mark m s).hlc.receiver = s.hlc.receiver := rfl
@[simp] theorem mark_hlc_processing (m : Matter) (s : State) : (mark m s).hlc.processing = s.hlc.processing := rfl
@[simp] theorem mark_hlc_buffer (m : Matter) (s : State) : (mark m s).hlc.buffer = s.hlc.buffer := rfl
@[simp] theorem mark_hlc_sending (m : Matter) (s : State) : (mark m s).hlc.sending = s.hlc.sending := rfl
@[simp] theorem mark_hlc_queue (m : Matter) (s : State) : (mark m s).hlc.queue = s.hlc.queue := rfl
@[simp] theorem mark_hlc_word (m : Matter) (s : State) : (mark m s).hlc.word = s.hlc.word := rfl
@[simp] theorem mark_hlc_previous (m : Matter) (s : State) : (mark m s).hlc.previous = s.hlc.previous := rfl
@[simp] theorem mark_hlc_lastTell (m : Matter) (s : State) : (mark m s).hlc.lastTell = s.hlc.lastTell := rfl
@[simp] theorem mark_hlc_stale (m : Matter) (s : State) : (mark m s).hlc.stale = s.hlc.stale := rfl
@[simp] theorem mark_hlc_firstTell (m : Matter) (s : State) : (mark m s).hlc.firstTell = s.hlc.firstTell := rfl
@[simp] theorem mark_hlc_silent (m : Matter) (s : State) : (mark m s).hlc.silent = s.hlc.silent := rfl
@[simp] theorem mark_hlc_silence (m : Matter) (s : State) : (mark m s).hlc.silence = s.hlc.silence := rfl
@[simp] theorem mark_hlc_oversize (m : Matter) (s : State) : (mark m s).hlc.oversize = s.hlc.oversize := rfl
@[simp] theorem mark_hlc_broken (m : Matter) (s : State) : (mark m s).hlc.broken = s.hlc.broken := rfl
@[simp] theorem mark_hlc_badCrc (m : Matter) (s : State) : (mark m s).hlc.badCrc = s.hlc.badCrc := rfl
@[simp] theorem mark_hlc_overrun (m : Matter) (s : State) : (mark m s).hlc.overrun = s.hlc.overrun := rfl

/-! ### markIf -/

@[simp] theorem markIf_now (b : Bool) (m : Matter) (s : State) : (markIf b m s).now = s.now := by cases b <;> rfl
@[simp] theorem markIf_freeCount (b : Bool) (m : Matter) (s : State) : (markIf b m s).freeCount = s.freeCount := by cases b <;> rfl
@[simp] theorem markIf_params (b : Bool) (m : Matter) (s : State) : (markIf b m s).params = s.params := by cases b <;> rfl
@[simp] theorem markIf_sfe (b : Bool) (m : Matter) (s : State) : (markIf b m s).sfe = s.sfe := by cases b <;> rfl
@[simp] theorem markIf_clc (b : Bool) (m : Matter) (s : State) : (markIf b m s).clc = s.clc := by cases b <;> rfl
@[simp] theorem markIf_ldt (b : Bool) (m : Matter) (s : State) : (markIf b m s).ldt = s.ldt := by cases b <;> rfl
@[simp] theorem markIf_jge (b : Bool) (m : Matter) (s : State) : (markIf b m s).jge = s.jge := by cases b <;> rfl
@[simp] theorem markIf_flt (b : Bool) (m : Matter) (s : State) : (markIf b m s).flt = s.flt := by cases b <;> rfl
@[simp] theorem markIf_dsr (b : Bool) (m : Matter) (s : State) : (markIf b m s).dsr = s.dsr := by cases b <;> rfl
@[simp] theorem markIf_svc (b : Bool) (m : Matter) (s : State) : (markIf b m s).svc = s.svc := by cases b <;> rfl
@[simp] theorem markIf_stc (b : Bool) (m : Matter) (s : State) : (markIf b m s).stc = s.stc := by cases b <;> rfl
@[simp] theorem markIf_pwc (b : Bool) (m : Matter) (s : State) : (markIf b m s).pwc = s.pwc := by cases b <;> rfl
@[simp] theorem markIf_pending (b : Bool) (m : Matter) (s : State) : (markIf b m s).pending = s.pending := by cases b <;> rfl
@[simp] theorem markIf_hlc_wire (b : Bool) (m : Matter) (s : State) : (markIf b m s).hlc.wire = s.hlc.wire := by cases b <;> rfl
@[simp] theorem markIf_hlc_receiver (b : Bool) (m : Matter) (s : State) : (markIf b m s).hlc.receiver = s.hlc.receiver := by cases b <;> rfl
@[simp] theorem markIf_hlc_processing (b : Bool) (m : Matter) (s : State) : (markIf b m s).hlc.processing = s.hlc.processing := by cases b <;> rfl
@[simp] theorem markIf_hlc_buffer (b : Bool) (m : Matter) (s : State) : (markIf b m s).hlc.buffer = s.hlc.buffer := by cases b <;> rfl
@[simp] theorem markIf_hlc_sending (b : Bool) (m : Matter) (s : State) : (markIf b m s).hlc.sending = s.hlc.sending := by cases b <;> rfl
@[simp] theorem markIf_hlc_queue (b : Bool) (m : Matter) (s : State) : (markIf b m s).hlc.queue = s.hlc.queue := by cases b <;> rfl
@[simp] theorem markIf_hlc_word (b : Bool) (m : Matter) (s : State) : (markIf b m s).hlc.word = s.hlc.word := by cases b <;> rfl
@[simp] theorem markIf_hlc_previous (b : Bool) (m : Matter) (s : State) : (markIf b m s).hlc.previous = s.hlc.previous := by cases b <;> rfl
@[simp] theorem markIf_hlc_lastTell (b : Bool) (m : Matter) (s : State) : (markIf b m s).hlc.lastTell = s.hlc.lastTell := by cases b <;> rfl
@[simp] theorem markIf_hlc_stale (b : Bool) (m : Matter) (s : State) : (markIf b m s).hlc.stale = s.hlc.stale := by cases b <;> rfl
@[simp] theorem markIf_hlc_firstTell (b : Bool) (m : Matter) (s : State) : (markIf b m s).hlc.firstTell = s.hlc.firstTell := by cases b <;> rfl
@[simp] theorem markIf_hlc_silent (b : Bool) (m : Matter) (s : State) : (markIf b m s).hlc.silent = s.hlc.silent := by cases b <;> rfl
@[simp] theorem markIf_hlc_silence (b : Bool) (m : Matter) (s : State) : (markIf b m s).hlc.silence = s.hlc.silence := by cases b <;> rfl
@[simp] theorem markIf_hlc_oversize (b : Bool) (m : Matter) (s : State) : (markIf b m s).hlc.oversize = s.hlc.oversize := by cases b <;> rfl
@[simp] theorem markIf_hlc_broken (b : Bool) (m : Matter) (s : State) : (markIf b m s).hlc.broken = s.hlc.broken := by cases b <;> rfl
@[simp] theorem markIf_hlc_badCrc (b : Bool) (m : Matter) (s : State) : (markIf b m s).hlc.badCrc = s.hlc.badCrc := by cases b <;> rfl
@[simp] theorem markIf_hlc_overrun (b : Bool) (m : Matter) (s : State) : (markIf b m s).hlc.overrun = s.hlc.overrun := by cases b <;> rfl

/-! ### setCircuit -/

@[simp] theorem setCircuit_now (c : Circuit) (x : CircuitSense) (s : State) : (setCircuit c x s).now = s.now := rfl
@[simp] theorem setCircuit_freeCount (c : Circuit) (x : CircuitSense) (s : State) : (setCircuit c x s).freeCount = s.freeCount := rfl
@[simp] theorem setCircuit_params (c : Circuit) (x : CircuitSense) (s : State) : (setCircuit c x s).params = s.params := rfl
@[simp] theorem setCircuit_clc (c : Circuit) (x : CircuitSense) (s : State) : (setCircuit c x s).clc = s.clc := rfl
@[simp] theorem setCircuit_ldt (c : Circuit) (x : CircuitSense) (s : State) : (setCircuit c x s).ldt = s.ldt := rfl
@[simp] theorem setCircuit_jge (c : Circuit) (x : CircuitSense) (s : State) : (setCircuit c x s).jge = s.jge := rfl
@[simp] theorem setCircuit_flt (c : Circuit) (x : CircuitSense) (s : State) : (setCircuit c x s).flt = s.flt := rfl
@[simp] theorem setCircuit_dsr (c : Circuit) (x : CircuitSense) (s : State) : (setCircuit c x s).dsr = s.dsr := rfl
@[simp] theorem setCircuit_svc (c : Circuit) (x : CircuitSense) (s : State) : (setCircuit c x s).svc = s.svc := rfl
@[simp] theorem setCircuit_hlc (c : Circuit) (x : CircuitSense) (s : State) : (setCircuit c x s).hlc = s.hlc := rfl
@[simp] theorem setCircuit_stc (c : Circuit) (x : CircuitSense) (s : State) : (setCircuit c x s).stc = s.stc := rfl
@[simp] theorem setCircuit_pwc (c : Circuit) (x : CircuitSense) (s : State) : (setCircuit c x s).pwc = s.pwc := rfl
@[simp] theorem setCircuit_pending (c : Circuit) (x : CircuitSense) (s : State) : (setCircuit c x s).pending = s.pending := rfl

/-! ### setSenseSat -/

@[simp] theorem setSenseSat_now (c : Circuit) (b : Bool) (s : State) : (setSenseSat c b s).now = s.now := by simp [setSenseSat]
@[simp] theorem setSenseSat_freeCount (c : Circuit) (b : Bool) (s : State) : (setSenseSat c b s).freeCount = s.freeCount := by simp [setSenseSat]
@[simp] theorem setSenseSat_params (c : Circuit) (b : Bool) (s : State) : (setSenseSat c b s).params = s.params := by simp [setSenseSat]
@[simp] theorem setSenseSat_clc (c : Circuit) (b : Bool) (s : State) : (setSenseSat c b s).clc = s.clc := by simp [setSenseSat]
@[simp] theorem setSenseSat_ldt (c : Circuit) (b : Bool) (s : State) : (setSenseSat c b s).ldt = s.ldt := by simp [setSenseSat]
@[simp] theorem setSenseSat_jge (c : Circuit) (b : Bool) (s : State) : (setSenseSat c b s).jge = s.jge := by simp [setSenseSat]
@[simp] theorem setSenseSat_flt (c : Circuit) (b : Bool) (s : State) : (setSenseSat c b s).flt = s.flt := by simp [setSenseSat]
@[simp] theorem setSenseSat_dsr (c : Circuit) (b : Bool) (s : State) : (setSenseSat c b s).dsr = s.dsr := by simp [setSenseSat]
@[simp] theorem setSenseSat_svc (c : Circuit) (b : Bool) (s : State) : (setSenseSat c b s).svc = s.svc := by simp [setSenseSat]
@[simp] theorem setSenseSat_stc (c : Circuit) (b : Bool) (s : State) : (setSenseSat c b s).stc = s.stc := by simp [setSenseSat]
@[simp] theorem setSenseSat_pwc (c : Circuit) (b : Bool) (s : State) : (setSenseSat c b s).pwc = s.pwc := by simp [setSenseSat]
@[simp] theorem setSenseSat_pending (c : Circuit) (b : Bool) (s : State) : (setSenseSat c b s).pending = s.pending := by simp [setSenseSat]
@[simp] theorem setSenseSat_hlc_wire (c : Circuit) (b : Bool) (s : State) : (setSenseSat c b s).hlc.wire = s.hlc.wire := by simp [setSenseSat]
@[simp] theorem setSenseSat_hlc_receiver (c : Circuit) (b : Bool) (s : State) : (setSenseSat c b s).hlc.receiver = s.hlc.receiver := by simp [setSenseSat]
@[simp] theorem setSenseSat_hlc_processing (c : Circuit) (b : Bool) (s : State) : (setSenseSat c b s).hlc.processing = s.hlc.processing := by simp [setSenseSat]
@[simp] theorem setSenseSat_hlc_buffer (c : Circuit) (b : Bool) (s : State) : (setSenseSat c b s).hlc.buffer = s.hlc.buffer := by simp [setSenseSat]
@[simp] theorem setSenseSat_hlc_sending (c : Circuit) (b : Bool) (s : State) : (setSenseSat c b s).hlc.sending = s.hlc.sending := by simp [setSenseSat]
@[simp] theorem setSenseSat_hlc_queue (c : Circuit) (b : Bool) (s : State) : (setSenseSat c b s).hlc.queue = s.hlc.queue := by simp [setSenseSat]
@[simp] theorem setSenseSat_hlc_word (c : Circuit) (b : Bool) (s : State) : (setSenseSat c b s).hlc.word = s.hlc.word := by simp [setSenseSat]
@[simp] theorem setSenseSat_hlc_previous (c : Circuit) (b : Bool) (s : State) : (setSenseSat c b s).hlc.previous = s.hlc.previous := by simp [setSenseSat]
@[simp] theorem setSenseSat_hlc_lastTell (c : Circuit) (b : Bool) (s : State) : (setSenseSat c b s).hlc.lastTell = s.hlc.lastTell := by simp [setSenseSat]
@[simp] theorem setSenseSat_hlc_stale (c : Circuit) (b : Bool) (s : State) : (setSenseSat c b s).hlc.stale = s.hlc.stale := by simp [setSenseSat]
@[simp] theorem setSenseSat_hlc_firstTell (c : Circuit) (b : Bool) (s : State) : (setSenseSat c b s).hlc.firstTell = s.hlc.firstTell := by simp [setSenseSat]
@[simp] theorem setSenseSat_hlc_silent (c : Circuit) (b : Bool) (s : State) : (setSenseSat c b s).hlc.silent = s.hlc.silent := by simp [setSenseSat]
@[simp] theorem setSenseSat_hlc_silence (c : Circuit) (b : Bool) (s : State) : (setSenseSat c b s).hlc.silence = s.hlc.silence := by simp [setSenseSat]
@[simp] theorem setSenseSat_hlc_oversize (c : Circuit) (b : Bool) (s : State) : (setSenseSat c b s).hlc.oversize = s.hlc.oversize := by simp [setSenseSat]
@[simp] theorem setSenseSat_hlc_broken (c : Circuit) (b : Bool) (s : State) : (setSenseSat c b s).hlc.broken = s.hlc.broken := by simp [setSenseSat]
@[simp] theorem setSenseSat_hlc_badCrc (c : Circuit) (b : Bool) (s : State) : (setSenseSat c b s).hlc.badCrc = s.hlc.badCrc := by simp [setSenseSat]
@[simp] theorem setSenseSat_hlc_overrun (c : Circuit) (b : Bool) (s : State) : (setSenseSat c b s).hlc.overrun = s.hlc.overrun := by simp [setSenseSat]

/-! ### setLeak -/

@[simp] theorem setLeak_now (c : Circuit) (b : Bool) (s : State) : (setLeak c b s).now = s.now := by simp [setLeak]
@[simp] theorem setLeak_freeCount (c : Circuit) (b : Bool) (s : State) : (setLeak c b s).freeCount = s.freeCount := by simp [setLeak]
@[simp] theorem setLeak_params (c : Circuit) (b : Bool) (s : State) : (setLeak c b s).params = s.params := by simp [setLeak]
@[simp] theorem setLeak_clc (c : Circuit) (b : Bool) (s : State) : (setLeak c b s).clc = s.clc := by simp [setLeak]
@[simp] theorem setLeak_ldt (c : Circuit) (b : Bool) (s : State) : (setLeak c b s).ldt = s.ldt := by simp [setLeak]
@[simp] theorem setLeak_jge (c : Circuit) (b : Bool) (s : State) : (setLeak c b s).jge = s.jge := by simp [setLeak]
@[simp] theorem setLeak_flt (c : Circuit) (b : Bool) (s : State) : (setLeak c b s).flt = s.flt := by simp [setLeak]
@[simp] theorem setLeak_dsr (c : Circuit) (b : Bool) (s : State) : (setLeak c b s).dsr = s.dsr := by simp [setLeak]
@[simp] theorem setLeak_svc (c : Circuit) (b : Bool) (s : State) : (setLeak c b s).svc = s.svc := by simp [setLeak]
@[simp] theorem setLeak_stc (c : Circuit) (b : Bool) (s : State) : (setLeak c b s).stc = s.stc := by simp [setLeak]
@[simp] theorem setLeak_pwc (c : Circuit) (b : Bool) (s : State) : (setLeak c b s).pwc = s.pwc := by simp [setLeak]
@[simp] theorem setLeak_pending (c : Circuit) (b : Bool) (s : State) : (setLeak c b s).pending = s.pending := by simp [setLeak]
@[simp] theorem setLeak_hlc_wire (c : Circuit) (b : Bool) (s : State) : (setLeak c b s).hlc.wire = s.hlc.wire := by simp [setLeak]
@[simp] theorem setLeak_hlc_receiver (c : Circuit) (b : Bool) (s : State) : (setLeak c b s).hlc.receiver = s.hlc.receiver := by simp [setLeak]
@[simp] theorem setLeak_hlc_processing (c : Circuit) (b : Bool) (s : State) : (setLeak c b s).hlc.processing = s.hlc.processing := by simp [setLeak]
@[simp] theorem setLeak_hlc_buffer (c : Circuit) (b : Bool) (s : State) : (setLeak c b s).hlc.buffer = s.hlc.buffer := by simp [setLeak]
@[simp] theorem setLeak_hlc_sending (c : Circuit) (b : Bool) (s : State) : (setLeak c b s).hlc.sending = s.hlc.sending := by simp [setLeak]
@[simp] theorem setLeak_hlc_queue (c : Circuit) (b : Bool) (s : State) : (setLeak c b s).hlc.queue = s.hlc.queue := by simp [setLeak]
@[simp] theorem setLeak_hlc_word (c : Circuit) (b : Bool) (s : State) : (setLeak c b s).hlc.word = s.hlc.word := by simp [setLeak]
@[simp] theorem setLeak_hlc_previous (c : Circuit) (b : Bool) (s : State) : (setLeak c b s).hlc.previous = s.hlc.previous := by simp [setLeak]
@[simp] theorem setLeak_hlc_lastTell (c : Circuit) (b : Bool) (s : State) : (setLeak c b s).hlc.lastTell = s.hlc.lastTell := by simp [setLeak]
@[simp] theorem setLeak_hlc_stale (c : Circuit) (b : Bool) (s : State) : (setLeak c b s).hlc.stale = s.hlc.stale := by simp [setLeak]
@[simp] theorem setLeak_hlc_firstTell (c : Circuit) (b : Bool) (s : State) : (setLeak c b s).hlc.firstTell = s.hlc.firstTell := by simp [setLeak]
@[simp] theorem setLeak_hlc_silent (c : Circuit) (b : Bool) (s : State) : (setLeak c b s).hlc.silent = s.hlc.silent := by simp [setLeak]
@[simp] theorem setLeak_hlc_silence (c : Circuit) (b : Bool) (s : State) : (setLeak c b s).hlc.silence = s.hlc.silence := by simp [setLeak]
@[simp] theorem setLeak_hlc_oversize (c : Circuit) (b : Bool) (s : State) : (setLeak c b s).hlc.oversize = s.hlc.oversize := by simp [setLeak]
@[simp] theorem setLeak_hlc_broken (c : Circuit) (b : Bool) (s : State) : (setLeak c b s).hlc.broken = s.hlc.broken := by simp [setLeak]
@[simp] theorem setLeak_hlc_badCrc (c : Circuit) (b : Bool) (s : State) : (setLeak c b s).hlc.badCrc = s.hlc.badCrc := by simp [setLeak]
@[simp] theorem setLeak_hlc_overrun (c : Circuit) (b : Bool) (s : State) : (setLeak c b s).hlc.overrun = s.hlc.overrun := by simp [setLeak]

/-! ### setVoltage -/

@[simp] theorem setVoltage_now (b : Bool) (s : State) : (setVoltage b s).now = s.now := by simp [setVoltage]
@[simp] theorem setVoltage_freeCount (b : Bool) (s : State) : (setVoltage b s).freeCount = s.freeCount := by simp [setVoltage]
@[simp] theorem setVoltage_params (b : Bool) (s : State) : (setVoltage b s).params = s.params := by simp [setVoltage]
@[simp] theorem setVoltage_clc (b : Bool) (s : State) : (setVoltage b s).clc = s.clc := by simp [setVoltage]
@[simp] theorem setVoltage_ldt (b : Bool) (s : State) : (setVoltage b s).ldt = s.ldt := by simp [setVoltage]
@[simp] theorem setVoltage_jge (b : Bool) (s : State) : (setVoltage b s).jge = s.jge := by simp [setVoltage]
@[simp] theorem setVoltage_flt (b : Bool) (s : State) : (setVoltage b s).flt = s.flt := by simp [setVoltage]
@[simp] theorem setVoltage_dsr (b : Bool) (s : State) : (setVoltage b s).dsr = s.dsr := by simp [setVoltage]
@[simp] theorem setVoltage_svc (b : Bool) (s : State) : (setVoltage b s).svc = s.svc := by simp [setVoltage]
@[simp] theorem setVoltage_stc (b : Bool) (s : State) : (setVoltage b s).stc = s.stc := by simp [setVoltage]
@[simp] theorem setVoltage_pwc (b : Bool) (s : State) : (setVoltage b s).pwc = s.pwc := by simp [setVoltage]
@[simp] theorem setVoltage_pending (b : Bool) (s : State) : (setVoltage b s).pending = s.pending := by simp [setVoltage]
@[simp] theorem setVoltage_hlc_wire (b : Bool) (s : State) : (setVoltage b s).hlc.wire = s.hlc.wire := by simp [setVoltage]
@[simp] theorem setVoltage_hlc_receiver (b : Bool) (s : State) : (setVoltage b s).hlc.receiver = s.hlc.receiver := by simp [setVoltage]
@[simp] theorem setVoltage_hlc_processing (b : Bool) (s : State) : (setVoltage b s).hlc.processing = s.hlc.processing := by simp [setVoltage]
@[simp] theorem setVoltage_hlc_buffer (b : Bool) (s : State) : (setVoltage b s).hlc.buffer = s.hlc.buffer := by simp [setVoltage]
@[simp] theorem setVoltage_hlc_sending (b : Bool) (s : State) : (setVoltage b s).hlc.sending = s.hlc.sending := by simp [setVoltage]
@[simp] theorem setVoltage_hlc_queue (b : Bool) (s : State) : (setVoltage b s).hlc.queue = s.hlc.queue := by simp [setVoltage]
@[simp] theorem setVoltage_hlc_word (b : Bool) (s : State) : (setVoltage b s).hlc.word = s.hlc.word := by simp [setVoltage]
@[simp] theorem setVoltage_hlc_previous (b : Bool) (s : State) : (setVoltage b s).hlc.previous = s.hlc.previous := by simp [setVoltage]
@[simp] theorem setVoltage_hlc_lastTell (b : Bool) (s : State) : (setVoltage b s).hlc.lastTell = s.hlc.lastTell := by simp [setVoltage]
@[simp] theorem setVoltage_hlc_stale (b : Bool) (s : State) : (setVoltage b s).hlc.stale = s.hlc.stale := by simp [setVoltage]
@[simp] theorem setVoltage_hlc_firstTell (b : Bool) (s : State) : (setVoltage b s).hlc.firstTell = s.hlc.firstTell := by simp [setVoltage]
@[simp] theorem setVoltage_hlc_silent (b : Bool) (s : State) : (setVoltage b s).hlc.silent = s.hlc.silent := by simp [setVoltage]
@[simp] theorem setVoltage_hlc_silence (b : Bool) (s : State) : (setVoltage b s).hlc.silence = s.hlc.silence := by simp [setVoltage]
@[simp] theorem setVoltage_hlc_oversize (b : Bool) (s : State) : (setVoltage b s).hlc.oversize = s.hlc.oversize := by simp [setVoltage]
@[simp] theorem setVoltage_hlc_broken (b : Bool) (s : State) : (setVoltage b s).hlc.broken = s.hlc.broken := by simp [setVoltage]
@[simp] theorem setVoltage_hlc_badCrc (b : Bool) (s : State) : (setVoltage b s).hlc.badCrc = s.hlc.badCrc := by simp [setVoltage]
@[simp] theorem setVoltage_hlc_overrun (b : Bool) (s : State) : (setVoltage b s).hlc.overrun = s.hlc.overrun := by simp [setVoltage]

/-! ### setLoadsFull -/

@[simp] theorem setLoadsFull_now (b : Bool) (s : State) : (setLoadsFull b s).now = s.now := by simp [setLoadsFull]
@[simp] theorem setLoadsFull_freeCount (b : Bool) (s : State) : (setLoadsFull b s).freeCount = s.freeCount := by simp [setLoadsFull]
@[simp] theorem setLoadsFull_params (b : Bool) (s : State) : (setLoadsFull b s).params = s.params := by simp [setLoadsFull]
@[simp] theorem setLoadsFull_sfe (b : Bool) (s : State) : (setLoadsFull b s).sfe = s.sfe := by simp [setLoadsFull]
@[simp] theorem setLoadsFull_clc (b : Bool) (s : State) : (setLoadsFull b s).clc = s.clc := by simp [setLoadsFull]
@[simp] theorem setLoadsFull_jge (b : Bool) (s : State) : (setLoadsFull b s).jge = s.jge := by simp [setLoadsFull]
@[simp] theorem setLoadsFull_flt (b : Bool) (s : State) : (setLoadsFull b s).flt = s.flt := by simp [setLoadsFull]
@[simp] theorem setLoadsFull_dsr (b : Bool) (s : State) : (setLoadsFull b s).dsr = s.dsr := by simp [setLoadsFull]
@[simp] theorem setLoadsFull_svc (b : Bool) (s : State) : (setLoadsFull b s).svc = s.svc := by simp [setLoadsFull]
@[simp] theorem setLoadsFull_stc (b : Bool) (s : State) : (setLoadsFull b s).stc = s.stc := by simp [setLoadsFull]
@[simp] theorem setLoadsFull_pwc (b : Bool) (s : State) : (setLoadsFull b s).pwc = s.pwc := by simp [setLoadsFull]
@[simp] theorem setLoadsFull_pending (b : Bool) (s : State) : (setLoadsFull b s).pending = s.pending := by simp [setLoadsFull]
@[simp] theorem setLoadsFull_hlc_wire (b : Bool) (s : State) : (setLoadsFull b s).hlc.wire = s.hlc.wire := by simp [setLoadsFull]
@[simp] theorem setLoadsFull_hlc_receiver (b : Bool) (s : State) : (setLoadsFull b s).hlc.receiver = s.hlc.receiver := by simp [setLoadsFull]
@[simp] theorem setLoadsFull_hlc_processing (b : Bool) (s : State) : (setLoadsFull b s).hlc.processing = s.hlc.processing := by simp [setLoadsFull]
@[simp] theorem setLoadsFull_hlc_buffer (b : Bool) (s : State) : (setLoadsFull b s).hlc.buffer = s.hlc.buffer := by simp [setLoadsFull]
@[simp] theorem setLoadsFull_hlc_sending (b : Bool) (s : State) : (setLoadsFull b s).hlc.sending = s.hlc.sending := by simp [setLoadsFull]
@[simp] theorem setLoadsFull_hlc_queue (b : Bool) (s : State) : (setLoadsFull b s).hlc.queue = s.hlc.queue := by simp [setLoadsFull]
@[simp] theorem setLoadsFull_hlc_word (b : Bool) (s : State) : (setLoadsFull b s).hlc.word = s.hlc.word := by simp [setLoadsFull]
@[simp] theorem setLoadsFull_hlc_previous (b : Bool) (s : State) : (setLoadsFull b s).hlc.previous = s.hlc.previous := by simp [setLoadsFull]
@[simp] theorem setLoadsFull_hlc_lastTell (b : Bool) (s : State) : (setLoadsFull b s).hlc.lastTell = s.hlc.lastTell := by simp [setLoadsFull]
@[simp] theorem setLoadsFull_hlc_stale (b : Bool) (s : State) : (setLoadsFull b s).hlc.stale = s.hlc.stale := by simp [setLoadsFull]
@[simp] theorem setLoadsFull_hlc_firstTell (b : Bool) (s : State) : (setLoadsFull b s).hlc.firstTell = s.hlc.firstTell := by simp [setLoadsFull]
@[simp] theorem setLoadsFull_hlc_silent (b : Bool) (s : State) : (setLoadsFull b s).hlc.silent = s.hlc.silent := by simp [setLoadsFull]
@[simp] theorem setLoadsFull_hlc_silence (b : Bool) (s : State) : (setLoadsFull b s).hlc.silence = s.hlc.silence := by simp [setLoadsFull]
@[simp] theorem setLoadsFull_hlc_oversize (b : Bool) (s : State) : (setLoadsFull b s).hlc.oversize = s.hlc.oversize := by simp [setLoadsFull]
@[simp] theorem setLoadsFull_hlc_broken (b : Bool) (s : State) : (setLoadsFull b s).hlc.broken = s.hlc.broken := by simp [setLoadsFull]
@[simp] theorem setLoadsFull_hlc_badCrc (b : Bool) (s : State) : (setLoadsFull b s).hlc.badCrc = s.hlc.badCrc := by simp [setLoadsFull]
@[simp] theorem setLoadsFull_hlc_overrun (b : Bool) (s : State) : (setLoadsFull b s).hlc.overrun = s.hlc.overrun := by simp [setLoadsFull]

/-! ### setStale -/

@[simp] theorem setStale_now (b : Bool) (s : State) : (setStale b s).now = s.now := by simp [setStale]
@[simp] theorem setStale_freeCount (b : Bool) (s : State) : (setStale b s).freeCount = s.freeCount := by simp [setStale]
@[simp] theorem setStale_params (b : Bool) (s : State) : (setStale b s).params = s.params := by simp [setStale]
@[simp] theorem setStale_sfe (b : Bool) (s : State) : (setStale b s).sfe = s.sfe := by simp [setStale]
@[simp] theorem setStale_clc (b : Bool) (s : State) : (setStale b s).clc = s.clc := by simp [setStale]
@[simp] theorem setStale_ldt (b : Bool) (s : State) : (setStale b s).ldt = s.ldt := by simp [setStale]
@[simp] theorem setStale_jge (b : Bool) (s : State) : (setStale b s).jge = s.jge := by simp [setStale]
@[simp] theorem setStale_flt (b : Bool) (s : State) : (setStale b s).flt = s.flt := by simp [setStale]
@[simp] theorem setStale_dsr (b : Bool) (s : State) : (setStale b s).dsr = s.dsr := by simp [setStale]
@[simp] theorem setStale_svc (b : Bool) (s : State) : (setStale b s).svc = s.svc := by simp [setStale]
@[simp] theorem setStale_stc (b : Bool) (s : State) : (setStale b s).stc = s.stc := by simp [setStale]
@[simp] theorem setStale_pwc (b : Bool) (s : State) : (setStale b s).pwc = s.pwc := by simp [setStale]
@[simp] theorem setStale_pending (b : Bool) (s : State) : (setStale b s).pending = s.pending := by simp [setStale]
@[simp] theorem setStale_hlc_wire (b : Bool) (s : State) : (setStale b s).hlc.wire = s.hlc.wire := by simp [setStale]
@[simp] theorem setStale_hlc_receiver (b : Bool) (s : State) : (setStale b s).hlc.receiver = s.hlc.receiver := by simp [setStale]
@[simp] theorem setStale_hlc_processing (b : Bool) (s : State) : (setStale b s).hlc.processing = s.hlc.processing := by simp [setStale]
@[simp] theorem setStale_hlc_buffer (b : Bool) (s : State) : (setStale b s).hlc.buffer = s.hlc.buffer := by simp [setStale]
@[simp] theorem setStale_hlc_sending (b : Bool) (s : State) : (setStale b s).hlc.sending = s.hlc.sending := by simp [setStale]
@[simp] theorem setStale_hlc_queue (b : Bool) (s : State) : (setStale b s).hlc.queue = s.hlc.queue := by simp [setStale]
@[simp] theorem setStale_hlc_word (b : Bool) (s : State) : (setStale b s).hlc.word = s.hlc.word := by simp [setStale]
@[simp] theorem setStale_hlc_previous (b : Bool) (s : State) : (setStale b s).hlc.previous = s.hlc.previous := by simp [setStale]
@[simp] theorem setStale_hlc_lastTell (b : Bool) (s : State) : (setStale b s).hlc.lastTell = s.hlc.lastTell := by simp [setStale]
@[simp] theorem setStale_hlc_firstTell (b : Bool) (s : State) : (setStale b s).hlc.firstTell = s.hlc.firstTell := by simp [setStale]
@[simp] theorem setStale_hlc_silent (b : Bool) (s : State) : (setStale b s).hlc.silent = s.hlc.silent := by simp [setStale]
@[simp] theorem setStale_hlc_silence (b : Bool) (s : State) : (setStale b s).hlc.silence = s.hlc.silence := by simp [setStale]
@[simp] theorem setStale_hlc_oversize (b : Bool) (s : State) : (setStale b s).hlc.oversize = s.hlc.oversize := by simp [setStale]
@[simp] theorem setStale_hlc_broken (b : Bool) (s : State) : (setStale b s).hlc.broken = s.hlc.broken := by simp [setStale]
@[simp] theorem setStale_hlc_badCrc (b : Bool) (s : State) : (setStale b s).hlc.badCrc = s.hlc.badCrc := by simp [setStale]
@[simp] theorem setStale_hlc_overrun (b : Bool) (s : State) : (setStale b s).hlc.overrun = s.hlc.overrun := by simp [setStale]

/-! ### setMirror -/

@[simp] theorem setMirror_now (m : MirrorState) (s : State) : (setMirror m s).now = s.now := by simp [setMirror]
@[simp] theorem setMirror_freeCount (m : MirrorState) (s : State) : (setMirror m s).freeCount = s.freeCount := by simp [setMirror]
@[simp] theorem setMirror_params (m : MirrorState) (s : State) : (setMirror m s).params = s.params := by simp [setMirror]
@[simp] theorem setMirror_sfe (m : MirrorState) (s : State) : (setMirror m s).sfe = s.sfe := by simp [setMirror]
@[simp] theorem setMirror_clc (m : MirrorState) (s : State) : (setMirror m s).clc = s.clc := by simp [setMirror]
@[simp] theorem setMirror_ldt (m : MirrorState) (s : State) : (setMirror m s).ldt = s.ldt := by simp [setMirror]
@[simp] theorem setMirror_jge (m : MirrorState) (s : State) : (setMirror m s).jge = s.jge := by simp [setMirror]
@[simp] theorem setMirror_flt (m : MirrorState) (s : State) : (setMirror m s).flt = s.flt := by simp [setMirror]
@[simp] theorem setMirror_svc (m : MirrorState) (s : State) : (setMirror m s).svc = s.svc := by simp [setMirror]
@[simp] theorem setMirror_stc (m : MirrorState) (s : State) : (setMirror m s).stc = s.stc := by simp [setMirror]
@[simp] theorem setMirror_pwc (m : MirrorState) (s : State) : (setMirror m s).pwc = s.pwc := by simp [setMirror]
@[simp] theorem setMirror_pending (m : MirrorState) (s : State) : (setMirror m s).pending = s.pending := by simp [setMirror]
@[simp] theorem setMirror_hlc_wire (m : MirrorState) (s : State) : (setMirror m s).hlc.wire = s.hlc.wire := by simp [setMirror]
@[simp] theorem setMirror_hlc_receiver (m : MirrorState) (s : State) : (setMirror m s).hlc.receiver = s.hlc.receiver := by simp [setMirror]
@[simp] theorem setMirror_hlc_processing (m : MirrorState) (s : State) : (setMirror m s).hlc.processing = s.hlc.processing := by simp [setMirror]
@[simp] theorem setMirror_hlc_buffer (m : MirrorState) (s : State) : (setMirror m s).hlc.buffer = s.hlc.buffer := by simp [setMirror]
@[simp] theorem setMirror_hlc_sending (m : MirrorState) (s : State) : (setMirror m s).hlc.sending = s.hlc.sending := by simp [setMirror]
@[simp] theorem setMirror_hlc_queue (m : MirrorState) (s : State) : (setMirror m s).hlc.queue = s.hlc.queue := by simp [setMirror]
@[simp] theorem setMirror_hlc_word (m : MirrorState) (s : State) : (setMirror m s).hlc.word = s.hlc.word := by simp [setMirror]
@[simp] theorem setMirror_hlc_previous (m : MirrorState) (s : State) : (setMirror m s).hlc.previous = s.hlc.previous := by simp [setMirror]
@[simp] theorem setMirror_hlc_lastTell (m : MirrorState) (s : State) : (setMirror m s).hlc.lastTell = s.hlc.lastTell := by simp [setMirror]
@[simp] theorem setMirror_hlc_stale (m : MirrorState) (s : State) : (setMirror m s).hlc.stale = s.hlc.stale := by simp [setMirror]
@[simp] theorem setMirror_hlc_firstTell (m : MirrorState) (s : State) : (setMirror m s).hlc.firstTell = s.hlc.firstTell := by simp [setMirror]
@[simp] theorem setMirror_hlc_silent (m : MirrorState) (s : State) : (setMirror m s).hlc.silent = s.hlc.silent := by simp [setMirror]
@[simp] theorem setMirror_hlc_silence (m : MirrorState) (s : State) : (setMirror m s).hlc.silence = s.hlc.silence := by simp [setMirror]
@[simp] theorem setMirror_hlc_oversize (m : MirrorState) (s : State) : (setMirror m s).hlc.oversize = s.hlc.oversize := by simp [setMirror]
@[simp] theorem setMirror_hlc_broken (m : MirrorState) (s : State) : (setMirror m s).hlc.broken = s.hlc.broken := by simp [setMirror]
@[simp] theorem setMirror_hlc_badCrc (m : MirrorState) (s : State) : (setMirror m s).hlc.badCrc = s.hlc.badCrc := by simp [setMirror]
@[simp] theorem setMirror_hlc_overrun (m : MirrorState) (s : State) : (setMirror m s).hlc.overrun = s.hlc.overrun := by simp [setMirror]

/-! ### setStoreFault -/

@[simp] theorem setStoreFault_now (b : StoreBlock) (x : Bool) (s : State) : (setStoreFault b x s).now = s.now := by simp [setStoreFault]
@[simp] theorem setStoreFault_freeCount (b : StoreBlock) (x : Bool) (s : State) : (setStoreFault b x s).freeCount = s.freeCount := by simp [setStoreFault]
@[simp] theorem setStoreFault_params (b : StoreBlock) (x : Bool) (s : State) : (setStoreFault b x s).params = s.params := by simp [setStoreFault]
@[simp] theorem setStoreFault_sfe (b : StoreBlock) (x : Bool) (s : State) : (setStoreFault b x s).sfe = s.sfe := by simp [setStoreFault]
@[simp] theorem setStoreFault_clc (b : StoreBlock) (x : Bool) (s : State) : (setStoreFault b x s).clc = s.clc := by simp [setStoreFault]
@[simp] theorem setStoreFault_ldt (b : StoreBlock) (x : Bool) (s : State) : (setStoreFault b x s).ldt = s.ldt := by simp [setStoreFault]
@[simp] theorem setStoreFault_jge (b : StoreBlock) (x : Bool) (s : State) : (setStoreFault b x s).jge = s.jge := by simp [setStoreFault]
@[simp] theorem setStoreFault_flt (b : StoreBlock) (x : Bool) (s : State) : (setStoreFault b x s).flt = s.flt := by simp [setStoreFault]
@[simp] theorem setStoreFault_dsr (b : StoreBlock) (x : Bool) (s : State) : (setStoreFault b x s).dsr = s.dsr := by simp [setStoreFault]
@[simp] theorem setStoreFault_svc (b : StoreBlock) (x : Bool) (s : State) : (setStoreFault b x s).svc = s.svc := by simp [setStoreFault]
@[simp] theorem setStoreFault_pwc (b : StoreBlock) (x : Bool) (s : State) : (setStoreFault b x s).pwc = s.pwc := by simp [setStoreFault]
@[simp] theorem setStoreFault_pending (b : StoreBlock) (x : Bool) (s : State) : (setStoreFault b x s).pending = s.pending := by simp [setStoreFault]
@[simp] theorem setStoreFault_hlc_wire (b : StoreBlock) (x : Bool) (s : State) : (setStoreFault b x s).hlc.wire = s.hlc.wire := by simp [setStoreFault]
@[simp] theorem setStoreFault_hlc_receiver (b : StoreBlock) (x : Bool) (s : State) : (setStoreFault b x s).hlc.receiver = s.hlc.receiver := by simp [setStoreFault]
@[simp] theorem setStoreFault_hlc_processing (b : StoreBlock) (x : Bool) (s : State) : (setStoreFault b x s).hlc.processing = s.hlc.processing := by simp [setStoreFault]
@[simp] theorem setStoreFault_hlc_buffer (b : StoreBlock) (x : Bool) (s : State) : (setStoreFault b x s).hlc.buffer = s.hlc.buffer := by simp [setStoreFault]
@[simp] theorem setStoreFault_hlc_sending (b : StoreBlock) (x : Bool) (s : State) : (setStoreFault b x s).hlc.sending = s.hlc.sending := by simp [setStoreFault]
@[simp] theorem setStoreFault_hlc_queue (b : StoreBlock) (x : Bool) (s : State) : (setStoreFault b x s).hlc.queue = s.hlc.queue := by simp [setStoreFault]
@[simp] theorem setStoreFault_hlc_word (b : StoreBlock) (x : Bool) (s : State) : (setStoreFault b x s).hlc.word = s.hlc.word := by simp [setStoreFault]
@[simp] theorem setStoreFault_hlc_previous (b : StoreBlock) (x : Bool) (s : State) : (setStoreFault b x s).hlc.previous = s.hlc.previous := by simp [setStoreFault]
@[simp] theorem setStoreFault_hlc_lastTell (b : StoreBlock) (x : Bool) (s : State) : (setStoreFault b x s).hlc.lastTell = s.hlc.lastTell := by simp [setStoreFault]
@[simp] theorem setStoreFault_hlc_stale (b : StoreBlock) (x : Bool) (s : State) : (setStoreFault b x s).hlc.stale = s.hlc.stale := by simp [setStoreFault]
@[simp] theorem setStoreFault_hlc_firstTell (b : StoreBlock) (x : Bool) (s : State) : (setStoreFault b x s).hlc.firstTell = s.hlc.firstTell := by simp [setStoreFault]
@[simp] theorem setStoreFault_hlc_silent (b : StoreBlock) (x : Bool) (s : State) : (setStoreFault b x s).hlc.silent = s.hlc.silent := by simp [setStoreFault]
@[simp] theorem setStoreFault_hlc_silence (b : StoreBlock) (x : Bool) (s : State) : (setStoreFault b x s).hlc.silence = s.hlc.silence := by simp [setStoreFault]
@[simp] theorem setStoreFault_hlc_oversize (b : StoreBlock) (x : Bool) (s : State) : (setStoreFault b x s).hlc.oversize = s.hlc.oversize := by simp [setStoreFault]
@[simp] theorem setStoreFault_hlc_broken (b : StoreBlock) (x : Bool) (s : State) : (setStoreFault b x s).hlc.broken = s.hlc.broken := by simp [setStoreFault]
@[simp] theorem setStoreFault_hlc_badCrc (b : StoreBlock) (x : Bool) (s : State) : (setStoreFault b x s).hlc.badCrc = s.hlc.badCrc := by simp [setStoreFault]
@[simp] theorem setStoreFault_hlc_overrun (b : StoreBlock) (x : Bool) (s : State) : (setStoreFault b x s).hlc.overrun = s.hlc.overrun := by simp [setStoreFault]

/-! ### commitFaults -/

@[simp] theorem commitFaults_now (f : Flt) (s : State) : (commitFaults f s).now = s.now := by simp [commitFaults]
@[simp] theorem commitFaults_freeCount (f : Flt) (s : State) : (commitFaults f s).freeCount = s.freeCount := by simp [commitFaults]
@[simp] theorem commitFaults_params (f : Flt) (s : State) : (commitFaults f s).params = s.params := by simp [commitFaults]
@[simp] theorem commitFaults_sfe (f : Flt) (s : State) : (commitFaults f s).sfe = s.sfe := by simp [commitFaults]
@[simp] theorem commitFaults_clc (f : Flt) (s : State) : (commitFaults f s).clc = s.clc := by simp [commitFaults]
@[simp] theorem commitFaults_ldt (f : Flt) (s : State) : (commitFaults f s).ldt = s.ldt := by simp [commitFaults]
@[simp] theorem commitFaults_jge (f : Flt) (s : State) : (commitFaults f s).jge = s.jge := by simp [commitFaults]
@[simp] theorem commitFaults_dsr (f : Flt) (s : State) : (commitFaults f s).dsr = s.dsr := by simp [commitFaults]
@[simp] theorem commitFaults_svc (f : Flt) (s : State) : (commitFaults f s).svc = s.svc := by simp [commitFaults]
@[simp] theorem commitFaults_stc (f : Flt) (s : State) : (commitFaults f s).stc = s.stc := by simp [commitFaults]
@[simp] theorem commitFaults_pwc (f : Flt) (s : State) : (commitFaults f s).pwc = s.pwc := by simp [commitFaults]
@[simp] theorem commitFaults_pending (f : Flt) (s : State) : (commitFaults f s).pending = s.pending := by simp [commitFaults]
@[simp] theorem commitFaults_hlc_wire (f : Flt) (s : State) : (commitFaults f s).hlc.wire = s.hlc.wire := by simp [commitFaults]
@[simp] theorem commitFaults_hlc_receiver (f : Flt) (s : State) : (commitFaults f s).hlc.receiver = s.hlc.receiver := by simp [commitFaults]
@[simp] theorem commitFaults_hlc_processing (f : Flt) (s : State) : (commitFaults f s).hlc.processing = s.hlc.processing := by simp [commitFaults]
@[simp] theorem commitFaults_hlc_buffer (f : Flt) (s : State) : (commitFaults f s).hlc.buffer = s.hlc.buffer := by simp [commitFaults]
@[simp] theorem commitFaults_hlc_sending (f : Flt) (s : State) : (commitFaults f s).hlc.sending = s.hlc.sending := by simp [commitFaults]
@[simp] theorem commitFaults_hlc_queue (f : Flt) (s : State) : (commitFaults f s).hlc.queue = s.hlc.queue := by simp [commitFaults]
@[simp] theorem commitFaults_hlc_word (f : Flt) (s : State) : (commitFaults f s).hlc.word = s.hlc.word := by simp [commitFaults]
@[simp] theorem commitFaults_hlc_previous (f : Flt) (s : State) : (commitFaults f s).hlc.previous = s.hlc.previous := by simp [commitFaults]
@[simp] theorem commitFaults_hlc_lastTell (f : Flt) (s : State) : (commitFaults f s).hlc.lastTell = s.hlc.lastTell := by simp [commitFaults]
@[simp] theorem commitFaults_hlc_stale (f : Flt) (s : State) : (commitFaults f s).hlc.stale = s.hlc.stale := by simp [commitFaults]
@[simp] theorem commitFaults_hlc_firstTell (f : Flt) (s : State) : (commitFaults f s).hlc.firstTell = s.hlc.firstTell := by simp [commitFaults]
@[simp] theorem commitFaults_hlc_silent (f : Flt) (s : State) : (commitFaults f s).hlc.silent = s.hlc.silent := by simp [commitFaults]
@[simp] theorem commitFaults_hlc_silence (f : Flt) (s : State) : (commitFaults f s).hlc.silence = s.hlc.silence := by simp [commitFaults]
@[simp] theorem commitFaults_hlc_oversize (f : Flt) (s : State) : (commitFaults f s).hlc.oversize = s.hlc.oversize := by simp [commitFaults]
@[simp] theorem commitFaults_hlc_broken (f : Flt) (s : State) : (commitFaults f s).hlc.broken = s.hlc.broken := by simp [commitFaults]
@[simp] theorem commitFaults_hlc_badCrc (f : Flt) (s : State) : (commitFaults f s).hlc.badCrc = s.hlc.badCrc := by simp [commitFaults]
@[simp] theorem commitFaults_hlc_overrun (f : Flt) (s : State) : (commitFaults f s).hlc.overrun = s.hlc.overrun := by simp [commitFaults]

/-! ### refreshLines -/

@[simp] theorem refreshLines_now (s : State) : (refreshLines s).now = s.now := rfl
@[simp] theorem refreshLines_freeCount (s : State) : (refreshLines s).freeCount = s.freeCount := rfl
@[simp] theorem refreshLines_params (s : State) : (refreshLines s).params = s.params := rfl
@[simp] theorem refreshLines_sfe (s : State) : (refreshLines s).sfe = s.sfe := rfl
@[simp] theorem refreshLines_clc (s : State) : (refreshLines s).clc = s.clc := rfl
@[simp] theorem refreshLines_ldt (s : State) : (refreshLines s).ldt = s.ldt := rfl
@[simp] theorem refreshLines_jge (s : State) : (refreshLines s).jge = s.jge := rfl
@[simp] theorem refreshLines_flt (s : State) : (refreshLines s).flt = s.flt := rfl
@[simp] theorem refreshLines_svc (s : State) : (refreshLines s).svc = s.svc := rfl
@[simp] theorem refreshLines_hlc (s : State) : (refreshLines s).hlc = s.hlc := rfl
@[simp] theorem refreshLines_stc (s : State) : (refreshLines s).stc = s.stc := rfl
@[simp] theorem refreshLines_pending (s : State) : (refreshLines s).pending = s.pending := rfl

/-! ### reach -/

@[simp] theorem reach_freeCount (d : Nat) (s : State) : (reach d s).freeCount = s.freeCount := rfl
@[simp] theorem reach_params (d : Nat) (s : State) : (reach d s).params = s.params := rfl
@[simp] theorem reach_sfe (d : Nat) (s : State) : (reach d s).sfe = s.sfe := rfl
@[simp] theorem reach_clc (d : Nat) (s : State) : (reach d s).clc = s.clc := rfl
@[simp] theorem reach_ldt (d : Nat) (s : State) : (reach d s).ldt = s.ldt := rfl
@[simp] theorem reach_jge (d : Nat) (s : State) : (reach d s).jge = s.jge := rfl
@[simp] theorem reach_flt (d : Nat) (s : State) : (reach d s).flt = s.flt := rfl
@[simp] theorem reach_dsr (d : Nat) (s : State) : (reach d s).dsr = s.dsr := rfl
@[simp] theorem reach_svc (d : Nat) (s : State) : (reach d s).svc = s.svc := rfl
@[simp] theorem reach_hlc (d : Nat) (s : State) : (reach d s).hlc = s.hlc := rfl
@[simp] theorem reach_stc (d : Nat) (s : State) : (reach d s).stc = s.stc := rfl
@[simp] theorem reach_pwc (d : Nat) (s : State) : (reach d s).pwc = s.pwc := rfl
@[simp] theorem reach_pending (d : Nat) (s : State) : (reach d s).pending = s.pending := rfl

/-! ### send -/

@[simp] theorem send_now (r : TxRecord) (s : State) : (send r s).now = s.now := rfl
@[simp] theorem send_freeCount (r : TxRecord) (s : State) : (send r s).freeCount = s.freeCount := rfl
@[simp] theorem send_params (r : TxRecord) (s : State) : (send r s).params = s.params := rfl
@[simp] theorem send_sfe (r : TxRecord) (s : State) : (send r s).sfe = s.sfe := rfl
@[simp] theorem send_clc (r : TxRecord) (s : State) : (send r s).clc = s.clc := rfl
@[simp] theorem send_ldt (r : TxRecord) (s : State) : (send r s).ldt = s.ldt := rfl
@[simp] theorem send_jge (r : TxRecord) (s : State) : (send r s).jge = s.jge := rfl
@[simp] theorem send_flt (r : TxRecord) (s : State) : (send r s).flt = s.flt := rfl
@[simp] theorem send_dsr (r : TxRecord) (s : State) : (send r s).dsr = s.dsr := rfl
@[simp] theorem send_svc (r : TxRecord) (s : State) : (send r s).svc = s.svc := rfl
@[simp] theorem send_stc (r : TxRecord) (s : State) : (send r s).stc = s.stc := rfl
@[simp] theorem send_pwc (r : TxRecord) (s : State) : (send r s).pwc = s.pwc := rfl
@[simp] theorem send_pending (r : TxRecord) (s : State) : (send r s).pending = s.pending := rfl
@[simp] theorem send_hlc_wire (r : TxRecord) (s : State) : (send r s).hlc.wire = s.hlc.wire := by simp [send]
@[simp] theorem send_hlc_receiver (r : TxRecord) (s : State) : (send r s).hlc.receiver = s.hlc.receiver := by simp [send]
@[simp] theorem send_hlc_processing (r : TxRecord) (s : State) : (send r s).hlc.processing = s.hlc.processing := by simp [send]
@[simp] theorem send_hlc_buffer (r : TxRecord) (s : State) : (send r s).hlc.buffer = s.hlc.buffer := by simp [send]
@[simp] theorem send_hlc_word (r : TxRecord) (s : State) : (send r s).hlc.word = s.hlc.word := by simp [send]
@[simp] theorem send_hlc_previous (r : TxRecord) (s : State) : (send r s).hlc.previous = s.hlc.previous := by simp [send]
@[simp] theorem send_hlc_lastTell (r : TxRecord) (s : State) : (send r s).hlc.lastTell = s.hlc.lastTell := by simp [send]
@[simp] theorem send_hlc_stale (r : TxRecord) (s : State) : (send r s).hlc.stale = s.hlc.stale := by simp [send]
@[simp] theorem send_hlc_firstTell (r : TxRecord) (s : State) : (send r s).hlc.firstTell = s.hlc.firstTell := by simp [send]
@[simp] theorem send_hlc_silent (r : TxRecord) (s : State) : (send r s).hlc.silent = s.hlc.silent := by simp [send]
@[simp] theorem send_hlc_silence (r : TxRecord) (s : State) : (send r s).hlc.silence = s.hlc.silence := by simp [send]
@[simp] theorem send_hlc_oversize (r : TxRecord) (s : State) : (send r s).hlc.oversize = s.hlc.oversize := by simp [send]
@[simp] theorem send_hlc_broken (r : TxRecord) (s : State) : (send r s).hlc.broken = s.hlc.broken := by simp [send]
@[simp] theorem send_hlc_badCrc (r : TxRecord) (s : State) : (send r s).hlc.badCrc = s.hlc.badCrc := by simp [send]
@[simp] theorem send_hlc_overrun (r : TxRecord) (s : State) : (send r s).hlc.overrun = s.hlc.overrun := by simp [send]
@[simp] theorem send_hlc_changes (r : TxRecord) (s : State) : (send r s).hlc.changes = s.hlc.changes := by simp [send]

/-! ### restartSilence -/

@[simp] theorem restartSilence_now (s : State) : (restartSilence s).now = s.now := rfl
@[simp] theorem restartSilence_freeCount (s : State) : (restartSilence s).freeCount = s.freeCount := rfl
@[simp] theorem restartSilence_params (s : State) : (restartSilence s).params = s.params := rfl
@[simp] theorem restartSilence_sfe (s : State) : (restartSilence s).sfe = s.sfe := rfl
@[simp] theorem restartSilence_clc (s : State) : (restartSilence s).clc = s.clc := rfl
@[simp] theorem restartSilence_ldt (s : State) : (restartSilence s).ldt = s.ldt := rfl
@[simp] theorem restartSilence_jge (s : State) : (restartSilence s).jge = s.jge := rfl
@[simp] theorem restartSilence_flt (s : State) : (restartSilence s).flt = s.flt := rfl
@[simp] theorem restartSilence_dsr (s : State) : (restartSilence s).dsr = s.dsr := rfl
@[simp] theorem restartSilence_svc (s : State) : (restartSilence s).svc = s.svc := rfl
@[simp] theorem restartSilence_stc (s : State) : (restartSilence s).stc = s.stc := rfl
@[simp] theorem restartSilence_pwc (s : State) : (restartSilence s).pwc = s.pwc := rfl
@[simp] theorem restartSilence_pending (s : State) : (restartSilence s).pending = s.pending := rfl
@[simp] theorem restartSilence_hlc_wire (s : State) : (restartSilence s).hlc.wire = s.hlc.wire := rfl
@[simp] theorem restartSilence_hlc_receiver (s : State) : (restartSilence s).hlc.receiver = s.hlc.receiver := rfl
@[simp] theorem restartSilence_hlc_processing (s : State) : (restartSilence s).hlc.processing = s.hlc.processing := rfl
@[simp] theorem restartSilence_hlc_buffer (s : State) : (restartSilence s).hlc.buffer = s.hlc.buffer := rfl
@[simp] theorem restartSilence_hlc_sending (s : State) : (restartSilence s).hlc.sending = s.hlc.sending := rfl
@[simp] theorem restartSilence_hlc_queue (s : State) : (restartSilence s).hlc.queue = s.hlc.queue := rfl
@[simp] theorem restartSilence_hlc_word (s : State) : (restartSilence s).hlc.word = s.hlc.word := rfl
@[simp] theorem restartSilence_hlc_previous (s : State) : (restartSilence s).hlc.previous = s.hlc.previous := rfl
@[simp] theorem restartSilence_hlc_lastTell (s : State) : (restartSilence s).hlc.lastTell = s.hlc.lastTell := rfl
@[simp] theorem restartSilence_hlc_stale (s : State) : (restartSilence s).hlc.stale = s.hlc.stale := rfl
@[simp] theorem restartSilence_hlc_firstTell (s : State) : (restartSilence s).hlc.firstTell = s.hlc.firstTell := rfl
@[simp] theorem restartSilence_hlc_silent (s : State) : (restartSilence s).hlc.silent = s.hlc.silent := rfl
@[simp] theorem restartSilence_hlc_oversize (s : State) : (restartSilence s).hlc.oversize = s.hlc.oversize := rfl
@[simp] theorem restartSilence_hlc_broken (s : State) : (restartSilence s).hlc.broken = s.hlc.broken := rfl
@[simp] theorem restartSilence_hlc_badCrc (s : State) : (restartSilence s).hlc.badCrc = s.hlc.badCrc := rfl
@[simp] theorem restartSilence_hlc_overrun (s : State) : (restartSilence s).hlc.overrun = s.hlc.overrun := rfl
@[simp] theorem restartSilence_hlc_changes (s : State) : (restartSilence s).hlc.changes = s.hlc.changes := rfl

/-! ### huntAgain -/

@[simp] theorem huntAgain_now (s : State) : (huntAgain s).now = s.now := rfl
@[simp] theorem huntAgain_freeCount (s : State) : (huntAgain s).freeCount = s.freeCount := rfl
@[simp] theorem huntAgain_params (s : State) : (huntAgain s).params = s.params := rfl
@[simp] theorem huntAgain_sfe (s : State) : (huntAgain s).sfe = s.sfe := rfl
@[simp] theorem huntAgain_clc (s : State) : (huntAgain s).clc = s.clc := rfl
@[simp] theorem huntAgain_ldt (s : State) : (huntAgain s).ldt = s.ldt := rfl
@[simp] theorem huntAgain_jge (s : State) : (huntAgain s).jge = s.jge := rfl
@[simp] theorem huntAgain_flt (s : State) : (huntAgain s).flt = s.flt := rfl
@[simp] theorem huntAgain_dsr (s : State) : (huntAgain s).dsr = s.dsr := rfl
@[simp] theorem huntAgain_svc (s : State) : (huntAgain s).svc = s.svc := rfl
@[simp] theorem huntAgain_stc (s : State) : (huntAgain s).stc = s.stc := rfl
@[simp] theorem huntAgain_pwc (s : State) : (huntAgain s).pwc = s.pwc := rfl
@[simp] theorem huntAgain_pending (s : State) : (huntAgain s).pending = s.pending := rfl
@[simp] theorem huntAgain_hlc_wire (s : State) : (huntAgain s).hlc.wire = s.hlc.wire := rfl
@[simp] theorem huntAgain_hlc_processing (s : State) : (huntAgain s).hlc.processing = s.hlc.processing := rfl
@[simp] theorem huntAgain_hlc_buffer (s : State) : (huntAgain s).hlc.buffer = s.hlc.buffer := rfl
@[simp] theorem huntAgain_hlc_sending (s : State) : (huntAgain s).hlc.sending = s.hlc.sending := rfl
@[simp] theorem huntAgain_hlc_queue (s : State) : (huntAgain s).hlc.queue = s.hlc.queue := rfl
@[simp] theorem huntAgain_hlc_word (s : State) : (huntAgain s).hlc.word = s.hlc.word := rfl
@[simp] theorem huntAgain_hlc_previous (s : State) : (huntAgain s).hlc.previous = s.hlc.previous := rfl
@[simp] theorem huntAgain_hlc_lastTell (s : State) : (huntAgain s).hlc.lastTell = s.hlc.lastTell := rfl
@[simp] theorem huntAgain_hlc_stale (s : State) : (huntAgain s).hlc.stale = s.hlc.stale := rfl
@[simp] theorem huntAgain_hlc_firstTell (s : State) : (huntAgain s).hlc.firstTell = s.hlc.firstTell := rfl
@[simp] theorem huntAgain_hlc_silent (s : State) : (huntAgain s).hlc.silent = s.hlc.silent := rfl
@[simp] theorem huntAgain_hlc_silence (s : State) : (huntAgain s).hlc.silence = s.hlc.silence := rfl
@[simp] theorem huntAgain_hlc_oversize (s : State) : (huntAgain s).hlc.oversize = s.hlc.oversize := rfl
@[simp] theorem huntAgain_hlc_broken (s : State) : (huntAgain s).hlc.broken = s.hlc.broken := rfl
@[simp] theorem huntAgain_hlc_badCrc (s : State) : (huntAgain s).hlc.badCrc = s.hlc.badCrc := rfl
@[simp] theorem huntAgain_hlc_overrun (s : State) : (huntAgain s).hlc.overrun = s.hlc.overrun := rfl
@[simp] theorem huntAgain_hlc_changes (s : State) : (huntAgain s).hlc.changes = s.hlc.changes := rfl

/-! ### takeWaiting -/

@[simp] theorem takeWaiting_now (s : State) : (takeWaiting s).now = s.now := by unfold takeWaiting; split <;> rfl
@[simp] theorem takeWaiting_freeCount (s : State) : (takeWaiting s).freeCount = s.freeCount := by unfold takeWaiting; split <;> rfl
@[simp] theorem takeWaiting_params (s : State) : (takeWaiting s).params = s.params := by unfold takeWaiting; split <;> rfl
@[simp] theorem takeWaiting_sfe (s : State) : (takeWaiting s).sfe = s.sfe := by unfold takeWaiting; split <;> rfl
@[simp] theorem takeWaiting_clc (s : State) : (takeWaiting s).clc = s.clc := by unfold takeWaiting; split <;> rfl
@[simp] theorem takeWaiting_ldt (s : State) : (takeWaiting s).ldt = s.ldt := by unfold takeWaiting; split <;> rfl
@[simp] theorem takeWaiting_jge (s : State) : (takeWaiting s).jge = s.jge := by unfold takeWaiting; split <;> rfl
@[simp] theorem takeWaiting_flt (s : State) : (takeWaiting s).flt = s.flt := by unfold takeWaiting; split <;> rfl
@[simp] theorem takeWaiting_dsr (s : State) : (takeWaiting s).dsr = s.dsr := by unfold takeWaiting; split <;> rfl
@[simp] theorem takeWaiting_svc (s : State) : (takeWaiting s).svc = s.svc := by unfold takeWaiting; split <;> rfl
@[simp] theorem takeWaiting_stc (s : State) : (takeWaiting s).stc = s.stc := by unfold takeWaiting; split <;> rfl
@[simp] theorem takeWaiting_pwc (s : State) : (takeWaiting s).pwc = s.pwc := by unfold takeWaiting; split <;> rfl
@[simp] theorem takeWaiting_pending (s : State) : (takeWaiting s).pending = s.pending := by unfold takeWaiting; split <;> rfl
@[simp] theorem takeWaiting_hlc_wire (s : State) : (takeWaiting s).hlc.wire = s.hlc.wire := by unfold takeWaiting; split <;> rfl
@[simp] theorem takeWaiting_hlc_receiver (s : State) : (takeWaiting s).hlc.receiver = s.hlc.receiver := by unfold takeWaiting; split <;> rfl
@[simp] theorem takeWaiting_hlc_sending (s : State) : (takeWaiting s).hlc.sending = s.hlc.sending := by unfold takeWaiting; split <;> rfl
@[simp] theorem takeWaiting_hlc_queue (s : State) : (takeWaiting s).hlc.queue = s.hlc.queue := by unfold takeWaiting; split <;> rfl
@[simp] theorem takeWaiting_hlc_word (s : State) : (takeWaiting s).hlc.word = s.hlc.word := by unfold takeWaiting; split <;> rfl
@[simp] theorem takeWaiting_hlc_previous (s : State) : (takeWaiting s).hlc.previous = s.hlc.previous := by unfold takeWaiting; split <;> rfl
@[simp] theorem takeWaiting_hlc_lastTell (s : State) : (takeWaiting s).hlc.lastTell = s.hlc.lastTell := by unfold takeWaiting; split <;> rfl
@[simp] theorem takeWaiting_hlc_stale (s : State) : (takeWaiting s).hlc.stale = s.hlc.stale := by unfold takeWaiting; split <;> rfl
@[simp] theorem takeWaiting_hlc_firstTell (s : State) : (takeWaiting s).hlc.firstTell = s.hlc.firstTell := by unfold takeWaiting; split <;> rfl
@[simp] theorem takeWaiting_hlc_silent (s : State) : (takeWaiting s).hlc.silent = s.hlc.silent := by unfold takeWaiting; split <;> rfl
@[simp] theorem takeWaiting_hlc_silence (s : State) : (takeWaiting s).hlc.silence = s.hlc.silence := by unfold takeWaiting; split <;> rfl
@[simp] theorem takeWaiting_hlc_oversize (s : State) : (takeWaiting s).hlc.oversize = s.hlc.oversize := by unfold takeWaiting; split <;> rfl
@[simp] theorem takeWaiting_hlc_broken (s : State) : (takeWaiting s).hlc.broken = s.hlc.broken := by unfold takeWaiting; split <;> rfl
@[simp] theorem takeWaiting_hlc_badCrc (s : State) : (takeWaiting s).hlc.badCrc = s.hlc.badCrc := by unfold takeWaiting; split <;> rfl
@[simp] theorem takeWaiting_hlc_overrun (s : State) : (takeWaiting s).hlc.overrun = s.hlc.overrun := by unfold takeWaiting; split <;> rfl
@[simp] theorem takeWaiting_hlc_changes (s : State) : (takeWaiting s).hlc.changes = s.hlc.changes := by unfold takeWaiting; split <;> rfl

/-! ### activeUntil -/

@[simp] theorem activeUntil_now (t : Nat) (s : State) : (activeUntil t s).now = s.now := rfl
@[simp] theorem activeUntil_freeCount (t : Nat) (s : State) : (activeUntil t s).freeCount = s.freeCount := rfl
@[simp] theorem activeUntil_params (t : Nat) (s : State) : (activeUntil t s).params = s.params := rfl
@[simp] theorem activeUntil_sfe (t : Nat) (s : State) : (activeUntil t s).sfe = s.sfe := rfl
@[simp] theorem activeUntil_ldt (t : Nat) (s : State) : (activeUntil t s).ldt = s.ldt := rfl
@[simp] theorem activeUntil_jge (t : Nat) (s : State) : (activeUntil t s).jge = s.jge := rfl
@[simp] theorem activeUntil_flt (t : Nat) (s : State) : (activeUntil t s).flt = s.flt := rfl
@[simp] theorem activeUntil_dsr (t : Nat) (s : State) : (activeUntil t s).dsr = s.dsr := rfl
@[simp] theorem activeUntil_svc (t : Nat) (s : State) : (activeUntil t s).svc = s.svc := rfl
@[simp] theorem activeUntil_hlc (t : Nat) (s : State) : (activeUntil t s).hlc = s.hlc := rfl
@[simp] theorem activeUntil_stc (t : Nat) (s : State) : (activeUntil t s).stc = s.stc := rfl
@[simp] theorem activeUntil_pwc (t : Nat) (s : State) : (activeUntil t s).pwc = s.pwc := rfl
@[simp] theorem activeUntil_pending (t : Nat) (s : State) : (activeUntil t s).pending = s.pending := rfl

/-! ### setClc -/

@[simp] theorem setClc_now (k : Clc) (s : State) : (setClc k s).now = s.now := rfl
@[simp] theorem setClc_freeCount (k : Clc) (s : State) : (setClc k s).freeCount = s.freeCount := rfl
@[simp] theorem setClc_params (k : Clc) (s : State) : (setClc k s).params = s.params := rfl
@[simp] theorem setClc_sfe (k : Clc) (s : State) : (setClc k s).sfe = s.sfe := rfl
@[simp] theorem setClc_ldt (k : Clc) (s : State) : (setClc k s).ldt = s.ldt := rfl
@[simp] theorem setClc_jge (k : Clc) (s : State) : (setClc k s).jge = s.jge := rfl
@[simp] theorem setClc_flt (k : Clc) (s : State) : (setClc k s).flt = s.flt := rfl
@[simp] theorem setClc_dsr (k : Clc) (s : State) : (setClc k s).dsr = s.dsr := rfl
@[simp] theorem setClc_svc (k : Clc) (s : State) : (setClc k s).svc = s.svc := rfl
@[simp] theorem setClc_hlc (k : Clc) (s : State) : (setClc k s).hlc = s.hlc := rfl
@[simp] theorem setClc_stc (k : Clc) (s : State) : (setClc k s).stc = s.stc := rfl
@[simp] theorem setClc_pwc (k : Clc) (s : State) : (setClc k s).pwc = s.pwc := rfl
@[simp] theorem setClc_pending (k : Clc) (s : State) : (setClc k s).pending = s.pending := rfl

/-! ### endExchange -/

@[simp] theorem endExchange_now (d : Nat) (s : State) : (endExchange d s).now = s.now := rfl
@[simp] theorem endExchange_freeCount (d : Nat) (s : State) : (endExchange d s).freeCount = s.freeCount := rfl
@[simp] theorem endExchange_params (d : Nat) (s : State) : (endExchange d s).params = s.params := rfl
@[simp] theorem endExchange_sfe (d : Nat) (s : State) : (endExchange d s).sfe = s.sfe := rfl
@[simp] theorem endExchange_ldt (d : Nat) (s : State) : (endExchange d s).ldt = s.ldt := rfl
@[simp] theorem endExchange_jge (d : Nat) (s : State) : (endExchange d s).jge = s.jge := rfl
@[simp] theorem endExchange_flt (d : Nat) (s : State) : (endExchange d s).flt = s.flt := rfl
@[simp] theorem endExchange_dsr (d : Nat) (s : State) : (endExchange d s).dsr = s.dsr := rfl
@[simp] theorem endExchange_svc (d : Nat) (s : State) : (endExchange d s).svc = s.svc := rfl
@[simp] theorem endExchange_hlc (d : Nat) (s : State) : (endExchange d s).hlc = s.hlc := rfl
@[simp] theorem endExchange_stc (d : Nat) (s : State) : (endExchange d s).stc = s.stc := rfl
@[simp] theorem endExchange_pwc (d : Nat) (s : State) : (endExchange d s).pwc = s.pwc := rfl
@[simp] theorem endExchange_pending (d : Nat) (s : State) : (endExchange d s).pending = s.pending := rfl

/-! ### beginFrame -/

@[simp] theorem beginFrame_now (x : Exchange) (s : State) : (beginFrame x s).now = s.now := rfl
@[simp] theorem beginFrame_freeCount (x : Exchange) (s : State) : (beginFrame x s).freeCount = s.freeCount := rfl
@[simp] theorem beginFrame_params (x : Exchange) (s : State) : (beginFrame x s).params = s.params := rfl
@[simp] theorem beginFrame_sfe (x : Exchange) (s : State) : (beginFrame x s).sfe = s.sfe := rfl
@[simp] theorem beginFrame_ldt (x : Exchange) (s : State) : (beginFrame x s).ldt = s.ldt := rfl
@[simp] theorem beginFrame_jge (x : Exchange) (s : State) : (beginFrame x s).jge = s.jge := rfl
@[simp] theorem beginFrame_flt (x : Exchange) (s : State) : (beginFrame x s).flt = s.flt := rfl
@[simp] theorem beginFrame_dsr (x : Exchange) (s : State) : (beginFrame x s).dsr = s.dsr := rfl
@[simp] theorem beginFrame_svc (x : Exchange) (s : State) : (beginFrame x s).svc = s.svc := rfl
@[simp] theorem beginFrame_hlc (x : Exchange) (s : State) : (beginFrame x s).hlc = s.hlc := rfl
@[simp] theorem beginFrame_stc (x : Exchange) (s : State) : (beginFrame x s).stc = s.stc := rfl
@[simp] theorem beginFrame_pwc (x : Exchange) (s : State) : (beginFrame x s).pwc = s.pwc := rfl
@[simp] theorem beginFrame_pending (x : Exchange) (s : State) : (beginFrame x s).pending = s.pending := rfl

/-! ### setList -/

@[simp] theorem setList_now (l : List DisplayEntry) (s : State) : (setList l s).now = s.now := rfl
@[simp] theorem setList_freeCount (l : List DisplayEntry) (s : State) : (setList l s).freeCount = s.freeCount := rfl
@[simp] theorem setList_params (l : List DisplayEntry) (s : State) : (setList l s).params = s.params := rfl
@[simp] theorem setList_sfe (l : List DisplayEntry) (s : State) : (setList l s).sfe = s.sfe := rfl
@[simp] theorem setList_clc (l : List DisplayEntry) (s : State) : (setList l s).clc = s.clc := rfl
@[simp] theorem setList_ldt (l : List DisplayEntry) (s : State) : (setList l s).ldt = s.ldt := rfl
@[simp] theorem setList_jge (l : List DisplayEntry) (s : State) : (setList l s).jge = s.jge := rfl
@[simp] theorem setList_flt (l : List DisplayEntry) (s : State) : (setList l s).flt = s.flt := rfl
@[simp] theorem setList_svc (l : List DisplayEntry) (s : State) : (setList l s).svc = s.svc := rfl
@[simp] theorem setList_hlc (l : List DisplayEntry) (s : State) : (setList l s).hlc = s.hlc := rfl
@[simp] theorem setList_stc (l : List DisplayEntry) (s : State) : (setList l s).stc = s.stc := rfl
@[simp] theorem setList_pwc (l : List DisplayEntry) (s : State) : (setList l s).pwc = s.pwc := rfl
@[simp] theorem setList_pending (l : List DisplayEntry) (s : State) : (setList l s).pending = s.pending := rfl

/-! ### setSvc -/

@[simp] theorem setSvc_now (v : Svc) (s : State) : (setSvc v s).now = s.now := rfl
@[simp] theorem setSvc_freeCount (v : Svc) (s : State) : (setSvc v s).freeCount = s.freeCount := rfl
@[simp] theorem setSvc_params (v : Svc) (s : State) : (setSvc v s).params = s.params := rfl
@[simp] theorem setSvc_sfe (v : Svc) (s : State) : (setSvc v s).sfe = s.sfe := rfl
@[simp] theorem setSvc_clc (v : Svc) (s : State) : (setSvc v s).clc = s.clc := rfl
@[simp] theorem setSvc_ldt (v : Svc) (s : State) : (setSvc v s).ldt = s.ldt := rfl
@[simp] theorem setSvc_jge (v : Svc) (s : State) : (setSvc v s).jge = s.jge := rfl
@[simp] theorem setSvc_flt (v : Svc) (s : State) : (setSvc v s).flt = s.flt := rfl
@[simp] theorem setSvc_dsr (v : Svc) (s : State) : (setSvc v s).dsr = s.dsr := rfl
@[simp] theorem setSvc_hlc (v : Svc) (s : State) : (setSvc v s).hlc = s.hlc := rfl
@[simp] theorem setSvc_stc (v : Svc) (s : State) : (setSvc v s).stc = s.stc := rfl
@[simp] theorem setSvc_pwc (v : Svc) (s : State) : (setSvc v s).pwc = s.pwc := rfl
@[simp] theorem setSvc_pending (v : Svc) (s : State) : (setSvc v s).pending = s.pending := rfl

/-! ### setLdt -/

@[simp] theorem setLdt_now (t : Ldt) (s : State) : (setLdt t s).now = s.now := rfl
@[simp] theorem setLdt_freeCount (t : Ldt) (s : State) : (setLdt t s).freeCount = s.freeCount := rfl
@[simp] theorem setLdt_params (t : Ldt) (s : State) : (setLdt t s).params = s.params := rfl
@[simp] theorem setLdt_sfe (t : Ldt) (s : State) : (setLdt t s).sfe = s.sfe := rfl
@[simp] theorem setLdt_clc (t : Ldt) (s : State) : (setLdt t s).clc = s.clc := rfl
@[simp] theorem setLdt_jge (t : Ldt) (s : State) : (setLdt t s).jge = s.jge := rfl
@[simp] theorem setLdt_flt (t : Ldt) (s : State) : (setLdt t s).flt = s.flt := rfl
@[simp] theorem setLdt_dsr (t : Ldt) (s : State) : (setLdt t s).dsr = s.dsr := rfl
@[simp] theorem setLdt_svc (t : Ldt) (s : State) : (setLdt t s).svc = s.svc := rfl
@[simp] theorem setLdt_hlc (t : Ldt) (s : State) : (setLdt t s).hlc = s.hlc := rfl
@[simp] theorem setLdt_stc (t : Ldt) (s : State) : (setLdt t s).stc = s.stc := rfl
@[simp] theorem setLdt_pwc (t : Ldt) (s : State) : (setLdt t s).pwc = s.pwc := rfl
@[simp] theorem setLdt_pending (t : Ldt) (s : State) : (setLdt t s).pending = s.pending := rfl

/-! ### setRule -/

@[simp] theorem setRule_now (n : Nat) (r : Rule) (s : State) : (setRule n r s).now = s.now := rfl
@[simp] theorem setRule_freeCount (n : Nat) (r : Rule) (s : State) : (setRule n r s).freeCount = s.freeCount := rfl
@[simp] theorem setRule_params (n : Nat) (r : Rule) (s : State) : (setRule n r s).params = s.params := rfl
@[simp] theorem setRule_sfe (n : Nat) (r : Rule) (s : State) : (setRule n r s).sfe = s.sfe := rfl
@[simp] theorem setRule_clc (n : Nat) (r : Rule) (s : State) : (setRule n r s).clc = s.clc := rfl
@[simp] theorem setRule_ldt (n : Nat) (r : Rule) (s : State) : (setRule n r s).ldt = s.ldt := rfl
@[simp] theorem setRule_flt (n : Nat) (r : Rule) (s : State) : (setRule n r s).flt = s.flt := rfl
@[simp] theorem setRule_dsr (n : Nat) (r : Rule) (s : State) : (setRule n r s).dsr = s.dsr := rfl
@[simp] theorem setRule_svc (n : Nat) (r : Rule) (s : State) : (setRule n r s).svc = s.svc := rfl
@[simp] theorem setRule_hlc (n : Nat) (r : Rule) (s : State) : (setRule n r s).hlc = s.hlc := rfl
@[simp] theorem setRule_stc (n : Nat) (r : Rule) (s : State) : (setRule n r s).stc = s.stc := rfl
@[simp] theorem setRule_pwc (n : Nat) (r : Rule) (s : State) : (setRule n r s).pwc = s.pwc := rfl
@[simp] theorem setRule_pending (n : Nat) (r : Rule) (s : State) : (setRule n r s).pending = s.pending := rfl

/-! ### setPower -/

@[simp] theorem setPower_now (p : PowerState) (s : State) : (setPower p s).now = s.now := rfl
@[simp] theorem setPower_freeCount (p : PowerState) (s : State) : (setPower p s).freeCount = s.freeCount := rfl
@[simp] theorem setPower_params (p : PowerState) (s : State) : (setPower p s).params = s.params := rfl
@[simp] theorem setPower_sfe (p : PowerState) (s : State) : (setPower p s).sfe = s.sfe := rfl
@[simp] theorem setPower_clc (p : PowerState) (s : State) : (setPower p s).clc = s.clc := rfl
@[simp] theorem setPower_ldt (p : PowerState) (s : State) : (setPower p s).ldt = s.ldt := rfl
@[simp] theorem setPower_jge (p : PowerState) (s : State) : (setPower p s).jge = s.jge := rfl
@[simp] theorem setPower_flt (p : PowerState) (s : State) : (setPower p s).flt = s.flt := rfl
@[simp] theorem setPower_dsr (p : PowerState) (s : State) : (setPower p s).dsr = s.dsr := rfl
@[simp] theorem setPower_svc (p : PowerState) (s : State) : (setPower p s).svc = s.svc := rfl
@[simp] theorem setPower_hlc (p : PowerState) (s : State) : (setPower p s).hlc = s.hlc := rfl
@[simp] theorem setPower_stc (p : PowerState) (s : State) : (setPower p s).stc = s.stc := rfl
@[simp] theorem setPower_pending (p : PowerState) (s : State) : (setPower p s).pending = s.pending := rfl

/-! ### setStandbyEntry -/

@[simp] theorem setStandbyEntry_now (b : Bool) (s : State) : (setStandbyEntry b s).now = s.now := rfl
@[simp] theorem setStandbyEntry_freeCount (b : Bool) (s : State) : (setStandbyEntry b s).freeCount = s.freeCount := rfl
@[simp] theorem setStandbyEntry_params (b : Bool) (s : State) : (setStandbyEntry b s).params = s.params := rfl
@[simp] theorem setStandbyEntry_sfe (b : Bool) (s : State) : (setStandbyEntry b s).sfe = s.sfe := rfl
@[simp] theorem setStandbyEntry_clc (b : Bool) (s : State) : (setStandbyEntry b s).clc = s.clc := rfl
@[simp] theorem setStandbyEntry_ldt (b : Bool) (s : State) : (setStandbyEntry b s).ldt = s.ldt := rfl
@[simp] theorem setStandbyEntry_jge (b : Bool) (s : State) : (setStandbyEntry b s).jge = s.jge := rfl
@[simp] theorem setStandbyEntry_flt (b : Bool) (s : State) : (setStandbyEntry b s).flt = s.flt := rfl
@[simp] theorem setStandbyEntry_dsr (b : Bool) (s : State) : (setStandbyEntry b s).dsr = s.dsr := rfl
@[simp] theorem setStandbyEntry_svc (b : Bool) (s : State) : (setStandbyEntry b s).svc = s.svc := rfl
@[simp] theorem setStandbyEntry_hlc (b : Bool) (s : State) : (setStandbyEntry b s).hlc = s.hlc := rfl
@[simp] theorem setStandbyEntry_stc (b : Bool) (s : State) : (setStandbyEntry b s).stc = s.stc := rfl
@[simp] theorem setStandbyEntry_pending (b : Bool) (s : State) : (setStandbyEntry b s).pending = s.pending := rfl

/-! ### setWatches -/

@[simp] theorem setWatches_now (g : Circuit → Watch → Watch) (s : State) : (setWatches g s).now = s.now := rfl
@[simp] theorem setWatches_freeCount (g : Circuit → Watch → Watch) (s : State) : (setWatches g s).freeCount = s.freeCount := rfl
@[simp] theorem setWatches_params (g : Circuit → Watch → Watch) (s : State) : (setWatches g s).params = s.params := rfl
@[simp] theorem setWatches_sfe (g : Circuit → Watch → Watch) (s : State) : (setWatches g s).sfe = s.sfe := rfl
@[simp] theorem setWatches_clc (g : Circuit → Watch → Watch) (s : State) : (setWatches g s).clc = s.clc := rfl
@[simp] theorem setWatches_ldt (g : Circuit → Watch → Watch) (s : State) : (setWatches g s).ldt = s.ldt := rfl
@[simp] theorem setWatches_flt (g : Circuit → Watch → Watch) (s : State) : (setWatches g s).flt = s.flt := rfl
@[simp] theorem setWatches_dsr (g : Circuit → Watch → Watch) (s : State) : (setWatches g s).dsr = s.dsr := rfl
@[simp] theorem setWatches_svc (g : Circuit → Watch → Watch) (s : State) : (setWatches g s).svc = s.svc := rfl
@[simp] theorem setWatches_hlc (g : Circuit → Watch → Watch) (s : State) : (setWatches g s).hlc = s.hlc := rfl
@[simp] theorem setWatches_stc (g : Circuit → Watch → Watch) (s : State) : (setWatches g s).stc = s.stc := rfl
@[simp] theorem setWatches_pwc (g : Circuit → Watch → Watch) (s : State) : (setWatches g s).pwc = s.pwc := rfl
@[simp] theorem setWatches_pending (g : Circuit → Watch → Watch) (s : State) : (setWatches g s).pending = s.pending := rfl

/-! ### evaluateWatches -/

@[simp] theorem evaluateWatches_now (s : State) : (evaluateWatches s).now = s.now := rfl
@[simp] theorem evaluateWatches_freeCount (s : State) : (evaluateWatches s).freeCount = s.freeCount := rfl
@[simp] theorem evaluateWatches_params (s : State) : (evaluateWatches s).params = s.params := rfl
@[simp] theorem evaluateWatches_sfe (s : State) : (evaluateWatches s).sfe = s.sfe := rfl
@[simp] theorem evaluateWatches_clc (s : State) : (evaluateWatches s).clc = s.clc := rfl
@[simp] theorem evaluateWatches_ldt (s : State) : (evaluateWatches s).ldt = s.ldt := rfl
@[simp] theorem evaluateWatches_flt (s : State) : (evaluateWatches s).flt = s.flt := rfl
@[simp] theorem evaluateWatches_dsr (s : State) : (evaluateWatches s).dsr = s.dsr := rfl
@[simp] theorem evaluateWatches_svc (s : State) : (evaluateWatches s).svc = s.svc := rfl
@[simp] theorem evaluateWatches_hlc (s : State) : (evaluateWatches s).hlc = s.hlc := rfl
@[simp] theorem evaluateWatches_stc (s : State) : (evaluateWatches s).stc = s.stc := rfl
@[simp] theorem evaluateWatches_pwc (s : State) : (evaluateWatches s).pwc = s.pwc := rfl
@[simp] theorem evaluateWatches_pending (s : State) : (evaluateWatches s).pending = s.pending := rfl

/-! ### disarmWatches -/

@[simp] theorem disarmWatches_now (s : State) : (disarmWatches s).now = s.now := rfl
@[simp] theorem disarmWatches_freeCount (s : State) : (disarmWatches s).freeCount = s.freeCount := rfl
@[simp] theorem disarmWatches_params (s : State) : (disarmWatches s).params = s.params := rfl
@[simp] theorem disarmWatches_sfe (s : State) : (disarmWatches s).sfe = s.sfe := rfl
@[simp] theorem disarmWatches_clc (s : State) : (disarmWatches s).clc = s.clc := rfl
@[simp] theorem disarmWatches_ldt (s : State) : (disarmWatches s).ldt = s.ldt := rfl
@[simp] theorem disarmWatches_flt (s : State) : (disarmWatches s).flt = s.flt := rfl
@[simp] theorem disarmWatches_dsr (s : State) : (disarmWatches s).dsr = s.dsr := rfl
@[simp] theorem disarmWatches_svc (s : State) : (disarmWatches s).svc = s.svc := rfl
@[simp] theorem disarmWatches_hlc (s : State) : (disarmWatches s).hlc = s.hlc := rfl
@[simp] theorem disarmWatches_stc (s : State) : (disarmWatches s).stc = s.stc := rfl
@[simp] theorem disarmWatches_pwc (s : State) : (disarmWatches s).pwc = s.pwc := rfl
@[simp] theorem disarmWatches_pending (s : State) : (disarmWatches s).pending = s.pending := rfl

/-! ### startAging -/

@[simp] theorem startAging_now (s : State) : (startAging s).now = s.now := rfl
@[simp] theorem startAging_freeCount (s : State) : (startAging s).freeCount = s.freeCount := rfl
@[simp] theorem startAging_params (s : State) : (startAging s).params = s.params := rfl
@[simp] theorem startAging_sfe (s : State) : (startAging s).sfe = s.sfe := rfl
@[simp] theorem startAging_clc (s : State) : (startAging s).clc = s.clc := rfl
@[simp] theorem startAging_ldt (s : State) : (startAging s).ldt = s.ldt := rfl
@[simp] theorem startAging_jge (s : State) : (startAging s).jge = s.jge := rfl
@[simp] theorem startAging_flt (s : State) : (startAging s).flt = s.flt := rfl
@[simp] theorem startAging_dsr (s : State) : (startAging s).dsr = s.dsr := rfl
@[simp] theorem startAging_svc (s : State) : (startAging s).svc = s.svc := rfl
@[simp] theorem startAging_hlc (s : State) : (startAging s).hlc = s.hlc := rfl
@[simp] theorem startAging_stc (s : State) : (startAging s).stc = s.stc := rfl
@[simp] theorem startAging_pending (s : State) : (startAging s).pending = s.pending := rfl

/-! ### stopAging -/

@[simp] theorem stopAging_now (s : State) : (stopAging s).now = s.now := rfl
@[simp] theorem stopAging_freeCount (s : State) : (stopAging s).freeCount = s.freeCount := rfl
@[simp] theorem stopAging_params (s : State) : (stopAging s).params = s.params := rfl
@[simp] theorem stopAging_sfe (s : State) : (stopAging s).sfe = s.sfe := rfl
@[simp] theorem stopAging_clc (s : State) : (stopAging s).clc = s.clc := rfl
@[simp] theorem stopAging_ldt (s : State) : (stopAging s).ldt = s.ldt := rfl
@[simp] theorem stopAging_jge (s : State) : (stopAging s).jge = s.jge := rfl
@[simp] theorem stopAging_flt (s : State) : (stopAging s).flt = s.flt := rfl
@[simp] theorem stopAging_dsr (s : State) : (stopAging s).dsr = s.dsr := rfl
@[simp] theorem stopAging_svc (s : State) : (stopAging s).svc = s.svc := rfl
@[simp] theorem stopAging_hlc (s : State) : (stopAging s).hlc = s.hlc := rfl
@[simp] theorem stopAging_stc (s : State) : (stopAging s).stc = s.stc := rfl
@[simp] theorem stopAging_pending (s : State) : (stopAging s).pending = s.pending := rfl

/-! ### setSticky -/

@[simp] theorem setSticky_now (r : ServiceResult) (s : State) : (setSticky r s).now = s.now := rfl
@[simp] theorem setSticky_freeCount (r : ServiceResult) (s : State) : (setSticky r s).freeCount = s.freeCount := rfl
@[simp] theorem setSticky_params (r : ServiceResult) (s : State) : (setSticky r s).params = s.params := rfl
@[simp] theorem setSticky_sfe (r : ServiceResult) (s : State) : (setSticky r s).sfe = s.sfe := rfl
@[simp] theorem setSticky_clc (r : ServiceResult) (s : State) : (setSticky r s).clc = s.clc := rfl
@[simp] theorem setSticky_ldt (r : ServiceResult) (s : State) : (setSticky r s).ldt = s.ldt := rfl
@[simp] theorem setSticky_jge (r : ServiceResult) (s : State) : (setSticky r s).jge = s.jge := rfl
@[simp] theorem setSticky_flt (r : ServiceResult) (s : State) : (setSticky r s).flt = s.flt := rfl
@[simp] theorem setSticky_dsr (r : ServiceResult) (s : State) : (setSticky r s).dsr = s.dsr := rfl
@[simp] theorem setSticky_hlc (r : ServiceResult) (s : State) : (setSticky r s).hlc = s.hlc := rfl
@[simp] theorem setSticky_stc (r : ServiceResult) (s : State) : (setSticky r s).stc = s.stc := rfl
@[simp] theorem setSticky_pwc (r : ServiceResult) (s : State) : (setSticky r s).pwc = s.pwc := rfl
@[simp] theorem setSticky_pending (r : ServiceResult) (s : State) : (setSticky r s).pending = s.pending := rfl

/-! ### setSummary -/

@[simp] theorem setSummary_now (c : Circuit) (x : Summary) (s : State) : (setSummary c x s).now = s.now := rfl
@[simp] theorem setSummary_freeCount (c : Circuit) (x : Summary) (s : State) : (setSummary c x s).freeCount = s.freeCount := rfl
@[simp] theorem setSummary_params (c : Circuit) (x : Summary) (s : State) : (setSummary c x s).params = s.params := rfl
@[simp] theorem setSummary_sfe (c : Circuit) (x : Summary) (s : State) : (setSummary c x s).sfe = s.sfe := rfl
@[simp] theorem setSummary_clc (c : Circuit) (x : Summary) (s : State) : (setSummary c x s).clc = s.clc := rfl
@[simp] theorem setSummary_ldt (c : Circuit) (x : Summary) (s : State) : (setSummary c x s).ldt = s.ldt := rfl
@[simp] theorem setSummary_flt (c : Circuit) (x : Summary) (s : State) : (setSummary c x s).flt = s.flt := rfl
@[simp] theorem setSummary_dsr (c : Circuit) (x : Summary) (s : State) : (setSummary c x s).dsr = s.dsr := rfl
@[simp] theorem setSummary_svc (c : Circuit) (x : Summary) (s : State) : (setSummary c x s).svc = s.svc := rfl
@[simp] theorem setSummary_hlc (c : Circuit) (x : Summary) (s : State) : (setSummary c x s).hlc = s.hlc := rfl
@[simp] theorem setSummary_stc (c : Circuit) (x : Summary) (s : State) : (setSummary c x s).stc = s.stc := rfl
@[simp] theorem setSummary_pwc (c : Circuit) (x : Summary) (s : State) : (setSummary c x s).pwc = s.pwc := rfl
@[simp] theorem setSummary_pending (c : Circuit) (x : Summary) (s : State) : (setSummary c x s).pending = s.pending := rfl

/-! ### The values written -/

@[simp] theorem markIf_false (m : Matter) (s : State) : markIf false m s = s := rfl
@[simp] theorem markIf_true (m : Matter) (s : State) : markIf true m s = mark m s := rfl
@[simp] theorem mark_changes (m : Matter) (s : State) : (mark m s).hlc.changes = addMatter m s.hlc.changes := rfl
@[simp] theorem setCircuit_sfe (c : Circuit) (x : CircuitSense) (s : State) :
    (setCircuit c x s).sfe = { s.sfe with circuits := s.sfe.circuits.set c x } := rfl
@[simp] theorem setSenseSat_sfe (c : Circuit) (b : Bool) (s : State) :
    (setSenseSat c b s).sfe =
      { s.sfe with circuits := s.sfe.circuits.set c { s.sfe.circuits.get c with senseSat := b } } := by
  simp [setSenseSat]
@[simp] theorem setLeak_sfe (c : Circuit) (b : Bool) (s : State) :
    (setLeak c b s).sfe = { s.sfe with circuits := s.sfe.circuits.set c { s.sfe.circuits.get c with leak := b } } := by
  simp [setLeak]
@[simp] theorem setVoltage_sfe (b : Bool) (s : State) : (setVoltage b s).sfe = { s.sfe with voltage := b } := by
  simp [setVoltage]
@[simp] theorem setLoadsFull_ldt (b : Bool) (s : State) : (setLoadsFull b s).ldt = { s.ldt with loadsFull := b } := by
  simp [setLoadsFull]
@[simp] theorem setStale_stale (b : Bool) (s : State) : (setStale b s).hlc.stale = b := by
  simp [setStale]
@[simp] theorem setMirror_dsr (m : MirrorState) (s : State) : (setMirror m s).dsr = { s.dsr with mirror := m } := by
  simp [setMirror]
@[simp] theorem setStoreFault_stc (b : StoreBlock) (x : Bool) (s : State) :
    (setStoreFault b x s).stc = { s.stc with fault := s.stc.fault.put b x } := by
  simp [setStoreFault]
@[simp] theorem commitFaults_flt (f : Flt) (s : State) :
    (commitFaults f s).flt =
      { f with fastLeft := fastFlashDue 0 f.records, fastRight := fastFlashDue 1 f.records } := by
  simp [commitFaults]
@[simp] theorem refreshLines_ttfb (s : State) : (refreshLines s).dsr = { s.dsr with ttfb := ttfbDue s } := rfl
@[simp] theorem refreshLines_wake (s : State) : (refreshLines s).pwc = { s.pwc with wake := wakeDue s } := rfl
@[simp] theorem reach_now (d : Nat) (s : State) : (reach d s).now = max s.now d := rfl
@[simp] theorem send_hlc (r : TxRecord) (s : State) : (send r s).hlc = s.hlc.enqueue r := rfl
@[simp] theorem huntAgain_receiver (s : State) : (huntAgain s).hlc.receiver = .hunting := rfl
@[simp] theorem activeUntil_clc (t : Nat) (s : State) :
    (activeUntil t s).clc = { s.clc with idleFrom := max s.clc.idleFrom t } := rfl
@[simp] theorem setClc_clc (k : Clc) (s : State) : (setClc k s).clc = k := rfl
@[simp] theorem setList_dsr (l : List DisplayEntry) (s : State) : (setList l s).dsr = { s.dsr with list := l } := rfl
@[simp] theorem setSvc_svc (v : Svc) (s : State) : (setSvc v s).svc = v := rfl
@[simp] theorem setLdt_ldt (t : Ldt) (s : State) : (setLdt t s).ldt = t := rfl
@[simp] theorem setPower_pwc (p : PowerState) (s : State) : (setPower p s).pwc = { s.pwc with power := p } := rfl
@[simp] theorem setStandbyEntry_pwc (b : Bool) (s : State) :
    (setStandbyEntry b s).pwc = { s.pwc with standbyEntry := b } := rfl

end Sys2Proof.Machine
end

