-- ==== Sys2Proof/Laws/Faults.lean ====
section
/-!
SUPPORT. The Fault Table's operations: what one outcome can do, that no operation moves a position, and what the
searches find.
-/
namespace Sys2Proof.Machine

@[simp] theorem putRecord_length (i : Nat) (r : FaultRecord) (f : Flt) :
    (putRecord i r f).records.length = f.records.length := by
  simp [putRecord]

@[simp] theorem settleSaturated_records (f : Flt) : (settleSaturated f).records = f.records := rfl

@[simp] theorem dropRecord_length (i : Nat) (f : Flt) : (dropRecord i f).records.length = f.records.length := by
  simp [dropRecord]

@[simp] theorem firstActive_length (i : Nat) (r : FaultRecord) (f : Flt) :
    (firstActive i r f).1.records.length = f.records.length := by
  simp [firstActive]

@[simp] theorem createSuspect_length (p : Params) (v : Verdict) (k : Kind) (f : Flt) :
    (createSuspect p v k f).1.records.length = f.records.length := by
  unfold createSuspect
  split
  · rfl
  · simp only
    split <;> simp

@[simp] theorem significant_length (p : Params) (i : Nat) (r : FaultRecord) (k : Kind) (f : Flt) :
    (significant p i r k f).1.records.length = f.records.length := by
  unfold significant
  simp only
  split
  · split <;> simp
  · simp
  · simp

@[simp] theorem healed_length (p : Params) (i : Nat) (r : FaultRecord) (f : Flt) :
    (healed p i r f).1.records.length = f.records.length := by
  unfold healed
  split
  · simp
  · split <;> simp
  · split <;> simp

@[simp] theorem applyVerdict_length (p : Params) (v : Verdict) (f : Flt) :
    (applyVerdict p v f).1.records.length = f.records.length := by
  unfold applyVerdict
  split
  · simp only
    split <;> simp
  · split <;> simp

/-- A batch seen one outcome at a time. -/
theorem applyBatch_cons (p : Params) (v : Verdict) (vs : List Verdict) (f : Flt) :
    (applyBatch p (v :: vs) f).1 = (applyBatch p vs (applyVerdict p v f).1).1 := by
  have key : ∀ (l : List Verdict) (g : Flt) (e : List FltEffect),
      (l.foldl (fun (acc : FltStep) v => ((applyVerdict p v acc.1).1, acc.2 ++ (applyVerdict p v acc.1).2)) (g, e)).1 =
        (l.foldl (fun (acc : FltStep) v => ((applyVerdict p v acc.1).1, acc.2 ++ (applyVerdict p v acc.1).2)) (g, [])).1 := by
    intro l
    induction l with
    | nil => intros; rfl
    | cons w l ih =>
      intro g e
      simp only [List.foldl_cons]
      rw [ih, ih (applyVerdict p w g).1 ([] ++ _)]
  simp only [applyBatch, List.foldl_cons]
  exact key vs _ _

@[simp] theorem applyBatch_nil (p : Params) (f : Flt) : applyBatch p [] f = (f, []) := rfl

@[simp] theorem applyBatch_length (p : Params) (vs : List Verdict) (f : Flt) :
    (applyBatch p vs f).1.records.length = f.records.length := by
  induction vs generalizing f with
  | nil => rfl
  | cons v vs ih => rw [applyBatch_cons, ih, applyVerdict_length]

@[simp] theorem createNodeLost_length (n : Nat) (id : Identity) (f : Flt) :
    (createNodeLost n id f).1.records.length = f.records.length := by
  unfold createNodeLost
  split
  · rfl
  · split <;> simp

@[simp] theorem removeWhere_length (t : FaultRecord → Bool) (b : Bool) (f : Flt) :
    (removeWhere t b f).1.records.length = f.records.length := by
  unfold removeWhere
  simp only
  split <;> simp

@[simp] theorem removeNodeLost_length (n : Nat) (f : Flt) :
    (removeNodeLost n f).1.records.length = f.records.length := by
  simp [removeNodeLost]

theorem foldl_createNodeLost_length (l : List (Nat × Identity)) (a : FltStep) :
    (l.foldl (fun acc x => acc.andThen (createNodeLost x.1 x.2)) a).1.records.length = a.1.records.length := by
  induction l generalizing a with
  | nil => rfl
  | cons x l ih => simp only [List.foldl_cons]; rw [ih]; simp [FltStep.andThen]

@[simp] theorem applyCensus_length (res : CensusResult) (f : Flt) :
    (applyCensus res f).1.records.length = f.records.length := by
  unfold applyCensus
  simp only [foldl_createNodeLost_length]
  split <;> simp [FltStep.andThen]

/-- A record found stands at its position with its key. -/
theorem findRecord_some {f : Flt} {k : FaultKey} {i : Nat} (h : findRecord f k = some i) :
    ∃ r, recordAt f i = some r ∧ r.key = k ∧ i < f.records.length := by
  unfold findRecord at h
  rw [List.findIdx?_eq_some_iff_getElem] at h
  obtain ⟨hi, hp, -⟩ := h
  cases hr : f.records[i] with
  | none => simp [hr] at hp
  | some r =>
    refine ⟨r, ?_, ?_, hi⟩
    · simp [recordAt, List.getD, hi, hr]
    · simpa [hr] using hp

/-- No record of a key the search does not find. -/
theorem findRecord_none {f : Flt} {k : FaultKey} (h : findRecord f k = none) :
    ∀ r, some r ∈ f.records → r.key ≠ k := by
  intro r hr hk
  unfold findRecord at h
  rw [List.findIdx?_eq_none_iff] at h
  simpa [hk] using h _ hr

end Sys2Proof.Machine
end

