-- ==== Sys2Proof/Laws/Link.lean ====
section
/-!
SUPPORT. The end of an event, the transmit queue, and the course of a host record: what the provers cite in place of
unfolding `finish`, `event` and `hostRecord`.
-/
namespace Sys2Proof.Machine

/-! ### The transmit queue (R169) -/

/-- A record made leaves last. -/
theorem outgoing_enqueue (r : TxRecord) (h : Hlc) : outgoing (h.enqueue r) = outgoing h ++ [r] := by
  unfold outgoing Hlc.enqueue Hlc.pump
  cases hs : h.sending <;> cases hq : h.queue <;> simp

theorem outgoing_foldl (rs : List TxRecord) (h : Hlc) :
    outgoing (rs.foldl (fun h r => h.enqueue r) h) = outgoing h ++ rs := by
  induction rs generalizing h with
  | nil => simp
  | cons r rs ih => simp [ih, outgoing_enqueue]

/-- Enqueueing writes the queue and the frame being sent, nothing else. -/
theorem Hlc.enqueue_eq (r : TxRecord) (h : Hlc) :
    h.enqueue r = { h with sending := (h.enqueue r).sending, queue := (h.enqueue r).queue } := by
  unfold Hlc.enqueue Hlc.pump
  split <;> rfl

theorem sendAll_eq (rs : List TxRecord) (s : State) :
    sendAll rs s = { s with hlc := rs.foldl (fun h r => h.enqueue r) s.hlc } := by
  induction rs generalizing s with
  | nil => rfl
  | cons r rs ih => simpa [sendAll, send] using ih (send r s)

/-! ### sendSnapshot and sendStatusChange -/

@[simp] theorem sendStatusChange_changes (s : State) : (sendStatusChange s).hlc.changes = [] := by
  simp [sendStatusChange]

theorem sendStatusChange_eq (s : State) : sendStatusChange s = { s with hlc := (sendStatusChange s).hlc } := rfl

@[simp] theorem sendStatusChange_dsr (s : State) : (sendStatusChange s).dsr = s.dsr := rfl
@[simp] theorem sendStatusChange_pwc (s : State) : (sendStatusChange s).pwc = s.pwc := rfl
@[simp] theorem sendStatusChange_flt (s : State) : (sendStatusChange s).flt = s.flt := rfl
@[simp] theorem sendStatusChange_params (s : State) : (sendStatusChange s).params = s.params := rfl
@[simp] theorem sendStatusChange_silent (s : State) : (sendStatusChange s).hlc.silent = s.hlc.silent := by
  simp [sendStatusChange]
@[simp] theorem sendStatusChange_buffer (s : State) : (sendStatusChange s).hlc.buffer = s.hlc.buffer := by
  simp [sendStatusChange]
@[simp] theorem sendStatusChange_processing (s : State) :
    (sendStatusChange s).hlc.processing = s.hlc.processing := by
  simp [sendStatusChange]
@[simp] theorem sendSnapshot_buffer (s : State) : (sendSnapshot s).hlc.buffer = s.hlc.buffer := by
  simp [sendSnapshot]
@[simp] theorem sendSnapshot_processing (s : State) : (sendSnapshot s).hlc.processing = s.hlc.processing := by
  simp [sendSnapshot]

/-- A STATUS-CHANGE writes the transmit queue and the change set, nothing else of the Host Link Controller. -/
theorem sendStatusChange_hlc (s : State) :
    (sendStatusChange s).hlc =
      { s.hlc with sending := (sendStatusChange s).hlc.sending, queue := (sendStatusChange s).hlc.queue, changes := [] } := by
  simp only [sendStatusChange, Hlc.enqueue, Hlc.pump]
  split <;> rfl

/-- A snapshot writes the transmit queue, the change set, the reconcile timer and the mirror, nothing else. -/
theorem sendSnapshot_eq (s : State) :
    sendSnapshot s =
      { s with
        hlc := (sendSnapshot s).hlc
        dsr := { s.dsr with reconcile := some (s.now + ms s.params.reconcile), mirror := .pending } } := by
  unfold sendSnapshot setMirror markIf mark
  simp only
  split <;> rfl

/-! ### The end of an event (R178, R202) -/

/-- What `finish` leaves: the two lines as the state gives them, and in the Host Link Controller no more than the
transmit queue and the change set. -/
theorem finish_eq (s : State) :
    finish s =
      { s with
        hlc := { s.hlc with
          sending := (finish s).hlc.sending, queue := (finish s).hlc.queue, changes := (finish s).hlc.changes }
        dsr := { s.dsr with ttfb := ttfbDue s }
        pwc := { s.pwc with wake := wakeDue s } } := by
  unfold finish
  simp only
  split
  · rw [sendStatusChange_eq, sendStatusChange_hlc]
    rfl
  · rfl

@[simp] theorem finish_now (s : State) : (finish s).now = s.now := by rw [finish_eq]
@[simp] theorem finish_freeCount (s : State) : (finish s).freeCount = s.freeCount := by rw [finish_eq]
@[simp] theorem finish_params (s : State) : (finish s).params = s.params := by rw [finish_eq]
@[simp] theorem finish_sfe (s : State) : (finish s).sfe = s.sfe := by rw [finish_eq]
@[simp] theorem finish_clc (s : State) : (finish s).clc = s.clc := by rw [finish_eq]
@[simp] theorem finish_ldt (s : State) : (finish s).ldt = s.ldt := by rw [finish_eq]
@[simp] theorem finish_jge (s : State) : (finish s).jge = s.jge := by rw [finish_eq]
@[simp] theorem finish_flt (s : State) : (finish s).flt = s.flt := by rw [finish_eq]
@[simp] theorem finish_svc (s : State) : (finish s).svc = s.svc := by rw [finish_eq]
@[simp] theorem finish_stc (s : State) : (finish s).stc = s.stc := by rw [finish_eq]
@[simp] theorem finish_pending (s : State) : (finish s).pending = s.pending := by rw [finish_eq]
@[simp] theorem finish_dsr (s : State) : (finish s).dsr = { s.dsr with ttfb := ttfbDue s } := by rw [finish_eq]
@[simp] theorem finish_pwc (s : State) : (finish s).pwc = { s.pwc with wake := wakeDue s } := by rw [finish_eq]
@[simp] theorem finish_wire (s : State) : (finish s).hlc.wire = s.hlc.wire := by rw [finish_eq]
@[simp] theorem finish_receiver (s : State) : (finish s).hlc.receiver = s.hlc.receiver := by rw [finish_eq]
@[simp] theorem finish_processing (s : State) : (finish s).hlc.processing = s.hlc.processing := by rw [finish_eq]
@[simp] theorem finish_buffer (s : State) : (finish s).hlc.buffer = s.hlc.buffer := by rw [finish_eq]
@[simp] theorem finish_word (s : State) : (finish s).hlc.word = s.hlc.word := by rw [finish_eq]
@[simp] theorem finish_previous (s : State) : (finish s).hlc.previous = s.hlc.previous := by rw [finish_eq]
@[simp] theorem finish_lastTell (s : State) : (finish s).hlc.lastTell = s.hlc.lastTell := by rw [finish_eq]
@[simp] theorem finish_stale (s : State) : (finish s).hlc.stale = s.hlc.stale := by rw [finish_eq]
@[simp] theorem finish_firstTell (s : State) : (finish s).hlc.firstTell = s.hlc.firstTell := by rw [finish_eq]
@[simp] theorem finish_silent (s : State) : (finish s).hlc.silent = s.hlc.silent := by rw [finish_eq]
@[simp] theorem finish_silence (s : State) : (finish s).hlc.silence = s.hlc.silence := by rw [finish_eq]
@[simp] theorem finish_oversize (s : State) : (finish s).hlc.oversize = s.hlc.oversize := by rw [finish_eq]
@[simp] theorem finish_broken (s : State) : (finish s).hlc.broken = s.hlc.broken := by rw [finish_eq]
@[simp] theorem finish_badCrc (s : State) : (finish s).hlc.badCrc = s.hlc.badCrc := by rw [finish_eq]
@[simp] theorem finish_overrun (s : State) : (finish s).hlc.overrun = s.hlc.overrun := by rw [finish_eq]

/-- With nothing to report the transmit queue stays. -/
theorem finish_quiet (s : State) (h : s.hlc.changes = []) : finish s = refreshLines s := by
  simp [finish, h]

/-- With nothing to report and the lines as they should be, nothing changes. -/
theorem finish_still (s : State) (h : s.hlc.changes = []) (hl : LinesLaw s) : finish s = s := by
  rw [finish_quiet s h]
  obtain ⟨h1, h2⟩ := hl
  unfold refreshLines
  rw [← h1, ← h2]

/-- In ACTIVE with no wake in hand a change set that is not empty goes out in one STATUS-CHANGE. -/
theorem finish_reports (s : State) (ha : s.pwc.power = .active) (hw : waking s = false) (h : s.hlc.changes ≠ []) :
    finish s = sendStatusChange (refreshLines s) := by
  have hw' : waking (refreshLines s) = false := hw
  simp [finish, ha, hw', h]

theorem event_released (work : State → State) (s : State) (h : s.pwc.held = false) :
    event work s = finish (work s) := by
  simp [event, h]

theorem event_held (work : State → State) (s : State) (h : s.pwc.held = true) : event work s = s := by
  simp [event, h]

/-! ### The two lines (R145, R193) -/

/-- After an event's end the lines stand as the state gives them. -/
theorem finish_lines (s : State) : LinesLaw (finish s) := by
  constructor
  · simp [ttfbDue]
  · simp [wakeDue]

/-- After any reset both lines are negated, as the state gives them. -/
theorem doReset_lines (c : ResetCause) (b : Bool) (s : State) : LinesLaw (doReset c b s) := by
  constructor
  · simp [doReset, Dsr.initial, ttfbDue, Pwc.initial]
  · simp [doReset, wakeDue, Pwc.initial]

/-! ### A host record in a part that listens (R167, R168) -/

/-- The lines' law looks at the power state, the records, the mirror, the link state, the wake flags and the mask. -/
theorem LinesLaw_of_same {s t : State} (h : LinesLaw s) (hp : t.pwc = s.pwc) (hd : t.dsr = s.dsr)
    (hf : t.flt = s.flt) (hm : t.params = s.params) (hs : t.hlc.silent = s.hlc.silent) : LinesLaw t := by
  obtain ⟨h1, h2⟩ := h
  constructor
  · unfold ttfbDue at *
    rw [hp, hd, hf, hs]
    exact h1
  · unfold wakeDue at *
    rw [hp, hm]
    exact h2

/-- A valid frame heard by a listening part restarts the silence timer and is taken for processing at once. -/
theorem frameCompletes_listening (f : HostFrame) (s : State) (h : Listening s) :
    frameCompletes f s =
      { restartSilence s with hlc := { (restartSilence s).hlc with
          processing := some { frame := f, cancelled := false, woke := false } } } := by
  obtain ⟨hh, hr, he, hp, ⟨hpr, hb, hrc⟩, hs, -, -⟩ := h
  have h0 : huntAgain s = s := by simp only [huntAgain]; rw [← hrc]
  have h1 : heard (frameArrives s) = restartSilence s := by
    simp [heard, frameArrives, hp, he, hs]
    rw [← hs]
  simp [frameCompletes, h0, h1, bufferFrame, takeWaiting, takesFrames, hb, he, hp, hpr, hh, hr, restartSilence]

/-- The arrival is an event of its own, with nothing to report. -/
theorem finish_arrival (f : HostFrame) (s : State) (h : Listening s) :
    finish (frameCompletes f s) = frameCompletes f s := by
  rw [frameCompletes_listening f s h]
  obtain ⟨-, -, -, -, -, -, hc, hln⟩ := h
  exact finish_still _ (by simpa using hc) (LinesLaw_of_same hln rfl rfl rfl rfl rfl)

/-- With no frame waiting none is taken. -/
theorem takeWaiting_empty (s : State) (h : s.hlc.buffer = none) : takeWaiting s = s := by
  obtain ⟨_, _, _, _, _, _, _, _, _, _, ⟨wire, receiver, processing, buffer, _⟩, _⟩ := s
  subst h
  cases processing <;> simp [takeWaiting]

/-- With no frame waiting none cancels an entry. -/
theorem waitingCancels_empty (s : State) (h : s.hlc.buffer = none) : waitingCancels s = s := by
  simp [waitingCancels, h]

/-- A frame that waits when an entry begins cancels it: the entry's mark and its waiting LOADS writes go, and the frame
is marked; nothing else changes. -/
theorem waitingCancels_eq (s : State) :
    waitingCancels s =
      { s with stc := (waitingCancels s).stc, pwc := (waitingCancels s).pwc,
               hlc := { s.hlc with buffer := (waitingCancels s).hlc.buffer } } := by
  unfold waitingCancels
  split <;> rfl

/-- After it no frame waits in an entry. -/
theorem waitingCancels_entry (s : State) (h : (waitingCancels s).pwc.standbyEntry = true) :
    (waitingCancels s).hlc.buffer = none := by
  by_cases hc : s.pwc.standbyEntry && s.hlc.buffer.isSome
  · simp only [waitingCancels, hc, if_true] at h
    simp [cancelEntry, setStandbyEntry] at h
  · have e : waitingCancels s = s := by simp only [waitingCancels, hc]; rfl
    rw [e] at h ⊢
    simpa [h] using hc

/-- A host record in a listening part is its frame's answer, and the event ends with it. -/
theorem hostRecord_answer (f : HostFrame) (owner : State → State) (s : State) (h : Listening s) :
    hostRecord f owner s =
      finish (takeWaiting (waitingCancels
        (answer { frame := f, cancelled := false, woke := false } owner (restartSilence s)))) := by
  have ha := (finish_arrival f s h).trans (frameCompletes_listening f s h)
  obtain ⟨hh, -, -, -, ⟨hpr, -, -⟩, -, -, -⟩ := h
  have hi : isProcessed f s = false := by simp [isProcessed, hpr]
  have hs : { restartSilence s with hlc := { (restartSilence s).hlc with processing := none } } = restartSilence s := by
    simp only [restartSilence]
    rw [← hpr]
  unfold hostRecord
  simp only [hh, hi, Bool.false_eq_true, if_false, ha, if_true]
  exact congrArg (fun x => finish (takeWaiting (waitingCancels
    (answer { frame := f, cancelled := false, woke := false } owner x)))) hs

/-- While the part listens, a frame that passes the link's tests and the Service Controller's meets its owner with
only the silence timer changed, and the event ends with it; the owners leave the empty input buffer as it is. -/
theorem hostRecord_listening (f : HostFrame) (owner : State → State) (s : State) (h : Listening s)
    (hk : isHostKind f.kind = true) (hl : lengthGood f = true)
    (hv : serviceVerdict f.kind s.svc.mode s.svc.state = .pass)
    (hb : (owner (restartSilence s)).hlc.buffer = none) :
    hostRecord f owner s = finish (owner (restartSilence s)) := by
  rw [hostRecord_answer f owner s h]
  obtain ⟨-, -, -, hp, -, -, -, -⟩ := h
  simp [answer, linkRefusal, hk, hl, hv, hp, waitingCancels_empty _ hb, takeWaiting_empty _ hb]

/-- The work of a request that only replies leaves the state `answered` says. -/
theorem finish_send (r : TxRecord) (s : State) (h : Listening s) :
    finish (send r (restartSilence s)) = answered [r] s := by
  obtain ⟨-, -, -, -, -, -, hc, hln⟩ := h
  rw [finish_still]
  · rfl
  · simpa using hc
  · exact LinesLaw_of_same hln rfl rfl rfl rfl (by simp)

theorem finish_sendAll (rs : List TxRecord) (s : State) (h : Listening s) :
    finish (sendAll rs (restartSilence s)) = answered rs s := by
  obtain ⟨-, -, -, -, -, -, hc, hln⟩ := h
  have hf : ∀ (l : List TxRecord) (x : Hlc),
      (l.foldl (fun h r => h.enqueue r) x).changes = x.changes ∧
        (l.foldl (fun h r => h.enqueue r) x).silent = x.silent := by
    intro l
    induction l with
    | nil => intro x; exact ⟨rfl, rfl⟩
    | cons r l ih => intro x; simpa using ih (x.enqueue r)
  rw [sendAll_eq, finish_still]
  · rfl
  · simpa using (hf rs (restartSilence s).hlc).1.trans hc
  · exact LinesLaw_of_same hln rfl rfl rfl rfl (hf rs (restartSilence s).hlc).2

/-- The same frame refused by the link or the Service Controller, without breaking an operation (R154, R168). -/
theorem hostRecord_refused (f : HostFrame) (owner : State → State) (s : State) (r : Reason) (h : Listening s)
    (hr : linkRefusal { frame := f, cancelled := false, woke := false } .active = some r ∨
      (linkRefusal { frame := f, cancelled := false, woke := false } .active = none ∧
        serviceVerdict f.kind s.svc.mode s.svc.state = .refused r)) :
    hostRecord f owner s = answered [.refused f.kind r] s := by
  rw [hostRecord_answer f owner s h, ← finish_send _ s h]
  obtain ⟨-, -, -, hp, ⟨-, hb, -⟩, -, -, -⟩ := h
  have he : (send (.refused f.kind r) (restartSilence s)).hlc.buffer = none := by simpa using hb
  rcases hr with hr | ⟨hn, hv⟩
  · simp [answer, hp, hr, refuse, waitingCancels_empty _ he, takeWaiting_empty _ he]
  · simp [answer, hp, hn, hv, refuse, waitingCancels_empty _ he, takeWaiting_empty _ he]

/-! ### The receiver (R166) -/

/-- A byte leaves the receiver hunting with the command it ends a frame with, or within a frame with none. -/
theorem Receiver.take_cases (r : Receiver) (b : RxByte) :
    (∃ taken, r.take b = (.receiving taken b.ends, none)) ∨ (∃ i, r.take b = (.hunting, i)) := by
  cases r with
  | hunting => by_cases h : b.stop && b.value = syncByte <;> simp [Receiver.take, h]
  | receiving taken last =>
    by_cases h : b.stop
    · cases hr : receiveFrame (taken ++ [b.value]) <;> simp [Receiver.take, h, hr]
    · simp [Receiver.take, h]

end Sys2Proof.Machine
end

