-- ==== Sys2Proof/Laws/Display.lean ====
section
/-!
SUPPORT. The Display Reconciler's operations: the length of a rebuilt list, and what a re-evaluation and a hand-over
leave as it was.
-/
namespace Sys2Proof.Machine

theorem placeCandidate_length (p : Params) (old : List DisplayEntry) (kept : List Nat) (b : Rebuild) (k : Candidate) :
    (placeCandidate p old kept b k).entries.length ≤ b.entries.length + 1 ∧
      (placeCandidate p old kept b k).records.length = b.records.length := by
  unfold placeCandidate
  split
  · split <;> simp
  · split
    · simp
    · split
      · split <;> simp
      · simp

theorem foldl_placeCandidate_length (p : Params) (old : List DisplayEntry) (kept : List Nat) (ks : List Candidate)
    (b : Rebuild) :
    (ks.foldl (placeCandidate p old kept) b).entries.length ≤ b.entries.length + ks.length ∧
      (ks.foldl (placeCandidate p old kept) b).records.length = b.records.length := by
  induction ks generalizing b with
  | nil => simp
  | cons k ks ih =>
    have h1 := placeCandidate_length p old kept b k
    have h2 := ih (placeCandidate p old kept b k)
    simp only [List.foldl_cons, List.length_cons]
    omega

/-- A rebuilt list holds at most 8 entries (R126). -/
theorem rebuildList_length (p : Params) (f : Flt) (d : Dsr) : (rebuildList p f d).2.list.length ≤ 8 := by
  unfold rebuildList
  simp only
  refine le_trans (foldl_placeCandidate_length p d.list _ _ _).1 ?_
  simp

@[simp] theorem rebuildList_records (p : Params) (f : Flt) (d : Dsr) :
    (rebuildList p f d).1.records.length = f.records.length := by
  unfold rebuildList
  simp only
  rw [(foldl_placeCandidate_length p d.list _ _ _).2]

/-- A re-evaluation writes the records' entry ids, the Display Reconciler and the Host Link Controller's queue and
change set, nothing else. -/
theorem reevaluate_eq (before : ListView) (s : State) :
    reevaluate before s =
      { s with flt := (rebuildList s.params s.flt s.dsr).1, dsr := (reevaluate before s).dsr,
               hlc := (reevaluate before s).hlc } := by
  unfold reevaluate
  simp only
  split
  · rw [sendSnapshot_eq]
  · rfl

/-- The list a re-evaluation leaves is the rebuilt one. -/
theorem reevaluate_list (before : ListView) (s : State) :
    (reevaluate before s).dsr.list = (rebuildList s.params s.flt s.dsr).2.list := by
  unfold reevaluate
  simp only
  split
  · rw [sendSnapshot_eq]
  · rfl

theorem reportWake_eq (r : WakeRecord) (s : State) : reportWake r s = { s with pwc := (reportWake r s).pwc } := by
  unfold reportWake
  split <;> rfl

theorem reportActivations_eq (es : List FltEffect) (s : State) :
    reportActivations es s = { s with pwc := (reportActivations es s).pwc } := by
  unfold reportActivations
  induction es generalizing s with
  | nil => rfl
  | cons e es ih =>
    simp only [List.foldl_cons]
    rw [ih]
    cases e with
    | activated r => simp only; rw [reportWake_eq]
    | removed r b => rfl

/-- Outside STANDBY no wake cause is taken (R192). -/
theorem reportActivations_awake (es : List FltEffect) (s : State) (h : s.pwc.power ≠ .standby) :
    reportActivations es s = s := by
  unfold reportActivations
  induction es generalizing s with
  | nil => rfl
  | cons e es ih =>
    simp only [List.foldl_cons]
    cases e with
    | activated r =>
      have : reportWake (faultReport r) s = s := by simp [reportWake, h]
      simp only [this]
      exact ih s h
    | removed r b => exact ih s h

/-- A hand-over writes the records' entry ids, the Display Reconciler, the transmit queue and change set, and the wake
causes, nothing else. -/
theorem handOverWith_eq (owned : List DisplayEntry → List DisplayEntry) (es : List FltEffect) (s : State) :
    handOverWith owned es s =
      { s with flt := (handOverWith owned es s).flt, dsr := (handOverWith owned es s).dsr,
               hlc := (handOverWith owned es s).hlc, pwc := (handOverWith owned es s).pwc } := by
  unfold handOverWith
  simp only
  rw [reevaluate_eq, reportActivations_eq]
  rfl

/-- After a hand-over the list holds at most 8 entries (R126). -/
theorem handOverWith_list (owned : List DisplayEntry → List DisplayEntry) (es : List FltEffect) (s : State) :
    (handOverWith owned es s).dsr.list.length ≤ 8 := by
  unfold handOverWith
  simp only [reevaluate_list]
  exact rebuildList_length _ _ _

@[simp] theorem handOverWith_records (owned : List DisplayEntry → List DisplayEntry) (es : List FltEffect)
    (s : State) : (handOverWith owned es s).flt.records.length = s.flt.records.length := by
  unfold handOverWith
  simp only
  rw [reevaluate_eq, reportActivations_eq]
  simp

end Sys2Proof.Machine
end

