-- ==== Sys2Proof/Laws/Loads.lean ====
section
/-!
SUPPORT. The Load Table's operations: none of them moves an index, and an edit leaves every other index as it was.
-/
namespace Sys2Proof.Machine

@[simp] theorem setEntry_length (i : Nat) (e : Option Entry) (t : Ldt) :
    (setEntry i e t).entries.length = t.entries.length := by
  simp [setEntry]

@[simp] theorem mapEntries_length (f : Entry → Option Entry) (t : Ldt) :
    (mapEntries f t).entries.length = t.entries.length := by
  simp [mapEntries]

@[simp] theorem editEntry_length (i : Nat) (f : Entry → Entry) (t : Ldt) :
    (editEntry i f t).entries.length = t.entries.length := by
  simp [editEntry]

@[simp] theorem endAllRuns_length (t : Ldt) : (endAllRuns t).entries.length = t.entries.length := by
  simp [endAllRuns]

@[simp] theorem createEntry_length (t : Ldt) (k : EntryKey) :
    (createEntry t k).entries.length = t.entries.length := by
  unfold createEntry
  split <;> simp

@[simp] theorem ensureEntry_length (t : Ldt) (k : EntryKey) :
    (ensureEntry t k).entries.length = t.entries.length := by
  unfold ensureEntry
  split <;> simp

@[simp] theorem retrack_entries (ids : List Identity) (t : Ldt) : (retrack ids t).entries = t.entries := rfl

theorem foldl_ensureEntry_length (ks : List EntryKey) (t : Ldt) :
    (ks.foldl ensureEntry t).entries.length = t.entries.length := by
  induction ks generalizing t with
  | nil => rfl
  | cons k ks ih => simp [ih]

@[simp] theorem lookup_length (ids : List Identity) (t : Ldt) :
    (lookup ids t).entries.length = t.entries.length := by
  simp [lookup, foldl_ensureEntry_length]

@[simp] theorem sweep_length (ids : List Identity) (t : Ldt) : (sweep ids t).entries.length = t.entries.length := by
  unfold sweep
  simp only
  split <;> simp [foldl_ensureEntry_length]

@[simp] theorem learnAt_length (i : Nat) (c : Circuit) (p : Params) (value volts : Nat) (cls : LampClass) (t : Ldt) :
    (learnAt i c p value volts cls t).entries.length = t.entries.length := by
  simp [learnAt]

@[simp] theorem learnSlot_length (p : Params) (c : Circuit) (volts : Nat) (t : Ldt) (v : SlotView) :
    (learnSlot p c volts t v).entries.length = t.entries.length := by
  unfold learnSlot
  split
  · split <;> simp
  · rfl

theorem foldl_learnSlot_length (p : Params) (c : Circuit) (volts : Nat) (vs : List SlotView) (t : Ldt) :
    (vs.foldl (learnSlot p c volts) t).entries.length = t.entries.length := by
  induction vs generalizing t with
  | nil => rfl
  | cons v vs ih => simp [ih]

@[simp] theorem learnAll_length (p : Params) (o : Offer) (vs : List SlotView) (rem : Option Tracked) (r : Int)
    (t : Ldt) : (learnAll p o vs rem r t).entries.length = t.entries.length := by
  unfold learnAll
  simp only
  split
  · split <;> simp [foldl_learnSlot_length]
  · simp [foldl_learnSlot_length]

/-- An edited index holds the edited entry. -/
theorem entryAt_editEntry_same (i : Nat) (f : Entry → Entry) (t : Ldt) :
    entryAt (editEntry i f t) i = (entryAt t i).map f := by
  by_cases h : i < t.entries.length
  · simp [editEntry, setEntry, entryAt, List.getD, h]
  · simp [editEntry, setEntry, entryAt, List.getD, h]

/-- Every other index is as it was. -/
theorem entryAt_editEntry_other (i j : Nat) (f : Entry → Entry) (t : Ldt) (h : j ≠ i) :
    entryAt (editEntry i f t) j = entryAt t j := by
  simp [editEntry, setEntry, entryAt, List.getD, List.getElem?_set_ne (Ne.symm h)]

end Sys2Proof.Machine
end

