-- ==== Sys2Proof/Laws/Frames.lean ====
section
/-!
SUPPORT. What the shared operations of the blocks write, one lemma for each: everything else is as it was.
-/
namespace Sys2Proof.Machine

/-! ### The Fault Table's hand-over (R106) -/

/-- Placing a candidate writes entry ids only. -/
theorem placeCandidate_contents (p : Params) (old : List DisplayEntry) (kept : List Nat) (b : Rebuild) (k : Candidate) :
    (placeCandidate p old kept b k).records.map (fun o => o.map FaultRecord.content) =
      b.records.map fun o => o.map FaultRecord.content := by
  unfold placeCandidate
  split
  · split <;> rfl
  · split
    · rfl
    · split
      · split <;> rfl
      · rename_i r hr _ _
        simp only [List.map_set]
        apply List.ext_getElem?
        intro j
        by_cases hj : k.index = j
        · subst hj
          by_cases h : k.index < b.records.length
          · have hr' : b.records[k.index] = some r := by simpa [List.getD, h] using hr
            simp [h, hr', FaultRecord.content]
          · simp [h]
        · rw [List.getElem?_set_ne hj]

/-- A rebuilt list leaves every record as it was but for its entry id (R112, R128). -/
theorem rebuildList_contents (p : Params) (f : Flt) (d : Dsr) :
    recordContents (rebuildList p f d).1 = recordContents f := by
  have key : ∀ (old : List DisplayEntry) (kept : List Nat) (ks : List Candidate) (b : Rebuild),
      (ks.foldl (placeCandidate p old kept) b).records.map (fun o => o.map FaultRecord.content) =
        b.records.map fun o => o.map FaultRecord.content := by
    intro old kept ks
    induction ks with
    | nil => intro b; rfl
    | cons k ks ih => intro b; rw [List.foldl_cons, ih, placeCandidate_contents]
  exact key _ _ _ _

theorem reevaluate_contents (before : ListView) (s : State) :
    recordContents (reevaluate before s).flt = recordContents s.flt := by
  rw [reevaluate_eq]
  exact rebuildList_contents _ _ _

/-- A hand-over leaves every record as the Fault Table left it but for its entry id. -/
theorem handOverWith_contents (owned : List DisplayEntry → List DisplayEntry) (es : List FltEffect) (s : State) :
    recordContents (handOverWith owned es s).flt = recordContents s.flt := by
  unfold handOverWith
  simp only [reevaluate_contents]
  rw [reportActivations_eq]
  rfl

/-- An operation on the Fault Table with its hand-over writes the Fault Table, the Display Reconciler, the transmit
queue and change set, and the wake causes. -/
theorem onFaults_eq (op : Flt → FltStep) (s : State) :
    onFaults op s =
      { s with flt := (onFaults op s).flt, dsr := (onFaults op s).dsr, hlc := (onFaults op s).hlc,
               pwc := (onFaults op s).pwc } := by
  unfold onFaults handOver
  simp only
  rw [handOverWith_eq]
  simp only [commitFaults_now, commitFaults_freeCount, commitFaults_params, commitFaults_sfe, commitFaults_clc,
    commitFaults_ldt, commitFaults_jge, commitFaults_svc, commitFaults_stc, commitFaults_pending]

/-- The records an operation on the Fault Table leaves are the operation's, but for their entry ids. -/
theorem onFaults_contents (op : Flt → FltStep) (s : State) :
    recordContents (onFaults op s).flt = recordContents (op s.flt).1 := by
  unfold onFaults handOver
  simp only [handOverWith_contents]
  rw [commitFaults_flt]
  rfl

/-! ### The Store Controller (R183, R184) -/

/-- The begin of a write touches the store copies and the waiting service write. -/
theorem beginWrite_eq (b : StoreBlock) (s : State) :
    beginWrite b s = { s with stc := (beginWrite b s).stc, svc := { s.svc with write := (beginWrite b s).svc.write } } := by
  unfold beginWrite
  cases b <;> rfl

/-- A write asked for touches the store and the waiting service write. -/
theorem askWrite_eq (b : StoreBlock) (s : State) :
    askWrite b s = { s with stc := (askWrite b s).stc, svc := { s.svc with write := (askWrite b s).svc.write } } := by
  unfold askWrite
  split
  · exact beginWrite_eq b s
  · split <;> rfl

theorem nextWrite_eq (s : State) :
    nextWrite s = { s with stc := (nextWrite s).stc, svc := { s.svc with write := (nextWrite s).svc.write } } := by
  unfold nextWrite
  split
  · rfl
  · rw [beginWrite_eq]

/-! ### The Chain Line Controller -/

/-- A census start that ends no capture touches the chain line alone; one that does, the Service Controller and the
transmit queue too (R25, R157). -/
theorem censusEndsCapture_eq (s : State) :
    censusEndsCapture s = { s with svc := (censusEndsCapture s).svc, hlc := (censusEndsCapture s).hlc } := by
  unfold censusEndsCapture
  split <;> rfl

theorem censusEndsCapture_idle (s : State) (h : s.svc.state ≠ .capturing) : censusEndsCapture s = s := by
  simp [censusEndsCapture, h]

theorem startCensus_eq (s : State) :
    startCensus s =
      { s with clc := (startCensus s).clc, svc := (startCensus s).svc, hlc := (startCensus s).hlc } := by
  unfold startCensus
  simp only
  rw [censusEndsCapture_eq]
  rfl

/-- What a census start leaves of the chain line (R25). -/
theorem startCensus_clc (s : State) :
    (startCensus s).clc.table = s.clc.table ∧ (startCensus s).clc.census = some emptyRun ∧
      (startCensus s).clc.task = some .roll ∧ (startCensus s).clc.line = .idle ∧ (startCensus s).clc.visit = none ∧
      (startCensus s).clc.cycle = none ∧ (startCensus s).clc.holdoff = none ∧
      (startCensus s).clc.pendingTrigger = false ∧ (startCensus s).clc.coupling = s.clc.coupling ∧
      (startCensus s).clc.counts = s.clc.counts ∧
      (startCensus s).clc.censusNumber = nextCensusNumber s.clc.censusNumber := by
  unfold startCensus
  simp only
  rw [censusEndsCapture_eq]
  unfold abandonLine cutCycle
  cases s.clc.cycle <;> simp

theorem triggerCensus_eq (s : State) :
    triggerCensus s =
      { s with clc := (triggerCensus s).clc, svc := (triggerCensus s).svc, hlc := (triggerCensus s).hlc } := by
  unfold triggerCensus
  split
  · exact startCensus_eq s
  · rfl

theorem abortCensus_eq (s : State) : abortCensus s = { s with clc := (abortCensus s).clc } := by
  unfold abortCensus
  split <;> rfl

theorem closeVisit_eq (s : State) : closeVisit s = { s with clc := (closeVisit s).clc } := by
  unfold closeVisit
  simp only
  split
  · split <;> rfl
  · rfl

/-- No slot of the cycle is left from a place on: each is LOST, and the counter is not 0 (R35). -/
theorem nextPlace_isNone_iff (k : Clc) (pos : Nat) : (nextPlace k pos).isNone = true ↔
    ∀ j z, pos ≤ j → k.table[j]? = some z → z.state = .lost ∧ k.cycleCounter ≠ 0 := by
  simp only [nextPlace, Option.isNone_iff_eq_none, Option.map_eq_none_iff, List.find?_eq_none]
  constructor
  · intro h j z hj hz
    have hm : (z, j) ∈ k.table.zipIdx.drop pos :=
      List.mem_iff_getElem?.2 ⟨j - pos, by rw [List.getElem?_drop, List.getElem?_zipIdx]; simp [Nat.add_sub_cancel' hj, hz]⟩
    simpa [visitable, not_or] using h _ hm
  · intro h x hx
    obtain ⟨i, hi⟩ := List.mem_iff_getElem?.1 hx
    rw [List.getElem?_drop, List.getElem?_zipIdx, Option.map_eq_some_iff] at hi
    obtain ⟨z, hz, rfl⟩ := hi
    simpa [visitable, not_or] using h (pos + i) z (Nat.le_add_right _ _) hz

/-- The end of a visit whose cycle ends with it (R41). -/
theorem closeVisit_clc_of_ends {s : State} {y : PollCycle} (h : s.clc.cycle = some y) (e : endsWithVisit s y = true) :
    (closeVisit s).clc = { s.clc with
      visit := none, line := .idle, idleFrom := max s.now (cutIdleFrom s.now s.clc)
      cycle := if s.pwc.power = .active then some (newCycle s.now) else none
      cycleCounter := stepCounter s.clc.cycleCounter } := by
  simp [closeVisit, h, e, setClc]

/-- The end of a visit whose cycle goes on (R35). -/
theorem closeVisit_clc_of_goes_on {s : State} {y : PollCycle} (h : s.clc.cycle = some y)
    (e : endsWithVisit s y = false) :
    (closeVisit s).clc = { s.clc with
      visit := none, line := .idle, idleFrom := max s.now (cutIdleFrom s.now s.clc)
      cycle := some { y with ended := some s.now } } := by
  simp [closeVisit, h, e, setClc]

theorem slotBecameStale_eq (s : State) :
    slotBecameStale s =
      { s with clc := (slotBecameStale s).clc, svc := (slotBecameStale s).svc, hlc := (slotBecameStale s).hlc } := by
  unfold slotBecameStale
  split
  · split
    · rfl
    · exact triggerCensus_eq s
  · rfl

/-- A census completion writes the chain line, the Load Table, the Fault Table, the Display Reconciler, the transmit
queue and change set, and the wake causes (R31 to R33, R203). -/
theorem completeCensus_eq (run : CensusRun) (s : State) :
    completeCensus run s =
      { s with clc := (completeCensus run s).clc, ldt := (completeCensus run s).ldt,
               flt := (completeCensus run s).flt, dsr := (completeCensus run s).dsr,
               hlc := (completeCensus run s).hlc, pwc := (completeCensus run s).pwc } := by
  have key : ∀ (xs : List (Nat × Identity)) (z : State),
      xs.foldl (fun acc x => reportWake (compositionReport x.1 x.2) acc) z =
        { z with pwc := (xs.foldl (fun acc x => reportWake (compositionReport x.1 x.2) acc) z).pwc } := by
    intro xs
    induction xs with
    | nil => intro z; rfl
    | cons x xs ih => intro z; rw [List.foldl_cons, ih, reportWake_eq]
  unfold completeCensus
  simp only
  rw [handOverWith_eq, key]
  simp only [commitFaults_now, commitFaults_freeCount, commitFaults_params, commitFaults_sfe, commitFaults_clc,
    commitFaults_ldt, commitFaults_jge, commitFaults_svc, commitFaults_stc, commitFaults_pending, setLoadsFull_now,
    setLoadsFull_freeCount, setLoadsFull_params, setLoadsFull_sfe, setLoadsFull_clc, setLoadsFull_jge,
    setLoadsFull_svc, setLoadsFull_stc, setLoadsFull_pending, send_now, send_freeCount, send_params, send_sfe,
    send_clc, send_ldt, send_jge, send_svc, send_stc, send_pending]
  rfl

/-! ### The Service Controller -/

theorem endCapture_eq (r : ServiceResult) (s : State) :
    endCapture r s = { s with svc := (endCapture r s).svc, hlc := (endCapture r s).hlc } := rfl

theorem endRelease_eq (r : ServiceResult) (s : State) :
    endRelease r s = { s with svc := (endRelease r s).svc, hlc := (endRelease r s).hlc } := rfl

theorem serviceOff_eq (s : State) :
    serviceOff s = { s with svc := (serviceOff s).svc, hlc := (serviceOff s).hlc } := by
  unfold serviceOff
  simp only
  split <;> rfl

/-! ### Judgement (R85, R106) -/

/-- An offer judged writes the summaries, the Fault Table and the change set. -/
theorem judgeOffer_eq (o : Offer) (s : State) :
    (judgeOffer o s).1 =
      { s with jge := (judgeOffer o s).1.jge, flt := (judgeOffer o s).1.flt, hlc := (judgeOffer o s).1.hlc } := by
  unfold judgeOffer
  simp only
  split
  · rfl
  · simp only
    unfold commitFaults markIf mark setSummary
    simp only
    split <;> split <;> split <;> rfl

/-- The learning and capture values of an offer write the Load Table and the Service Controller (R54, R156). -/
theorem handValues_eq (o : Offer) (t : Taken) (rem : Option Tracked) (s : State) :
    handValues o t rem s = { s with ldt := (handValues o t rem s).ldt, svc := (handValues o t rem s).svc } := by
  unfold handValues
  split <;> rfl

/-- An offer judged with its hand-overs writes no sense state, no chain state and no setting (R84, R100). -/
theorem judge_eq (o : Offer) (s : State) :
    judge o s =
      { s with jge := (judge o s).jge, flt := (judge o s).flt, ldt := (judge o s).ldt, dsr := (judge o s).dsr,
               svc := (judge o s).svc, hlc := (judge o s).hlc, pwc := (judge o s).pwc } := by
  unfold judge
  simp only
  rw [handValues_eq]
  split
  · unfold handOver
    rw [handOverWith_eq, judgeOffer_eq]
  · rw [judgeOffer_eq]

/-- A window's completion leaves the clock, the settings, the chain line and the store as they were (R8, R9). -/
theorem completeWindow_eq (c : Circuit) (x : CircuitSense) (s : State) :
    completeWindow c x s =
      { s with sfe := (completeWindow c x s).sfe, jge := (completeWindow c x s).jge, flt := (completeWindow c x s).flt,
               ldt := (completeWindow c x s).ldt, dsr := (completeWindow c x s).dsr, svc := (completeWindow c x s).svc,
               hlc := (completeWindow c x s).hlc, pwc := (completeWindow c x s).pwc } := by
  have mark' : ∀ (b : Bool) (m : Matter) (s : State), markIf b m s = { s with hlc := (markIf b m s).hlc } := by
    intro b m s
    unfold markIf
    split <;> rfl
  have voltage : ∀ (o : Offer) (s : State),
      offerVoltage o s = { s with sfe := (offerVoltage o s).sfe, hlc := (offerVoltage o s).hlc } := by
    intro o s
    unfold offerVoltage setVoltage
    split
    · rw [mark']
    · rfl
  unfold completeWindow
  split
  · unfold completeJudgement
    simp only
    rw [judge_eq, voltage]
    unfold setSenseSat
    rw [mark']
    rfl
  · unfold completeZero setLeak setSenseSat
    simp only
    rw [mark']
    unfold setCircuit
    rw [mark']
  · rfl

theorem completeScanned_eq (old new : FunctionWord) (s : State) (c : Circuit) :
    completeScanned old new s c =
      { s with sfe := (completeScanned old new s c).sfe, jge := (completeScanned old new s c).jge,
               flt := (completeScanned old new s c).flt, ldt := (completeScanned old new s c).ldt,
               dsr := (completeScanned old new s c).dsr, svc := (completeScanned old new s c).svc,
               hlc := (completeScanned old new s c).hlc, pwc := (completeScanned old new s c).pwc } := by
  unfold completeScanned
  simp only
  split
  · rw [finish_eq, completeWindow_eq]
  · rfl

/-- What a scan of a tell's moment completes leaves the clock, the settings, the chain line and the store as they were
(R6). -/
theorem scanFirst_eq (ended : Bool) (old new : FunctionWord) (s : State) :
    scanFirst ended old new s =
      { s with sfe := (scanFirst ended old new s).sfe, jge := (scanFirst ended old new s).jge,
               flt := (scanFirst ended old new s).flt, ldt := (scanFirst ended old new s).ldt,
               dsr := (scanFirst ended old new s).dsr, svc := (scanFirst ended old new s).svc,
               hlc := (scanFirst ended old new s).hlc, pwc := (scanFirst ended old new s).pwc } := by
  unfold scanFirst
  split
  · rfl
  · induction allCircuits generalizing s with
    | nil => rfl
    | cons c cs ih => rw [List.foldl_cons, ih, completeScanned_eq]

/-- With no window filled by a scan of the moment, nothing comes before the edges. -/
theorem scanFirst_noneDue (ended : Bool) (old new : FunctionWord) (s : State)
    (h : ∀ c, itemOn old c ≠ itemOn new c → scannedNow s.now (s.sfe.circuits.get c) = false) :
    scanFirst ended old new s = s := by
  unfold scanFirst
  split
  · rfl
  · induction allCircuits with
    | nil => rfl
    | cons c cs ih =>
      have step : completeScanned old new s c = s := by
        unfold completeScanned
        by_cases hc : itemOn old c = itemOn new c
        · simp [hc]
        · simp [h c hc]
      rw [List.foldl_cons, step, ih]
end Sys2Proof.Machine
end

