-- ==== Sys2Proof/Laws/PerInstr.lean ====
section
/-!
SUPPORT. Per-command statements: the frame a host record is gives the record back (R198, R199).
-/
namespace Sys2Proof.Laws

/-- A well-formed command that is a host record is the command of its frame. -/
def FrameOfCommand.Statement (i : Instr) : Prop :=
  ∀ f, frameOfCommand i = some f → WellFormed i = true → commandOfFrame f = i

theorem FrameOfCommand.powerOn : FrameOfCommand.Statement .powerOn := by
  rintro f h -
  cases h

theorem FrameOfCommand.resetLineAssert : FrameOfCommand.Statement .resetLineAssert := by
  rintro f h -
  cases h

theorem FrameOfCommand.resetLineRelease : FrameOfCommand.Statement .resetLineRelease := by
  rintro f h -
  cases h

theorem FrameOfCommand.restartReset : FrameOfCommand.Statement .restartReset := by
  rintro f h -
  cases h

theorem FrameOfCommand.storeLoadDone : FrameOfCommand.Statement .storeLoadDone := by
  rintro f h -
  cases h

theorem FrameOfCommand.hostFrameValid (kind : Byte) (body : List Byte) : FrameOfCommand.Statement (.hostFrameValid kind body) := by
  rintro f h -
  cases h

theorem FrameOfCommand.hostFrameOversize : FrameOfCommand.Statement .hostFrameOversize := by
  rintro f h -
  cases h

theorem FrameOfCommand.hostFrameBroken : FrameOfCommand.Statement .hostFrameBroken := by
  rintro f h -
  cases h

theorem FrameOfCommand.hostFrameBadCrc : FrameOfCommand.Statement .hostFrameBadCrc := by
  rintro f h -
  cases h

theorem FrameOfCommand.unknownKind (kind : Byte) (body : List Byte) : FrameOfCommand.Statement (.unknownKind kind body) := by
  rintro f h hw
  cases h
  have hk : kind.toNat ≠ 33 := by
    intro h33
    have : kind = 0x21 := BitVec.eq_of_toNat_eq h33
    simp [WellFormed, isHostKind, clusterReportKind, this] at hw
  unfold commandOfFrame
  split <;> simp_all [WellFormed, isHostKind, bodyLength, clusterReportKind]

theorem FrameOfCommand.frameSent : FrameOfCommand.Statement .frameSent := by
  rintro f h -
  cases h

theorem FrameOfCommand.identify (body : List Byte) : FrameOfCommand.Statement (.identify body) := by
  rintro f h -
  cases h
  rfl

theorem FrameOfCommand.status (body : List Byte) : FrameOfCommand.Statement (.status body) := by
  rintro f h -
  cases h
  rfl

theorem FrameOfCommand.census (body : List Byte) : FrameOfCommand.Statement (.census body) := by
  rintro f h -
  cases h
  rfl

theorem FrameOfCommand.readChain (body : List Byte) : FrameOfCommand.Statement (.readChain body) := by
  rintro f h -
  cases h
  rfl

theorem FrameOfCommand.readLoads (body : List Byte) : FrameOfCommand.Statement (.readLoads body) := by
  rintro f h -
  cases h
  rfl

theorem FrameOfCommand.readFaults (body : List Byte) : FrameOfCommand.Statement (.readFaults body) := by
  rintro f h -
  cases h
  rfl

theorem FrameOfCommand.display (body : List Byte) : FrameOfCommand.Statement (.display body) := by
  rintro f h -
  cases h
  rfl

theorem FrameOfCommand.setParam (body : List Byte) : FrameOfCommand.Statement (.setParam body) := by
  rintro f h -
  cases h
  rfl

theorem FrameOfCommand.readParam (body : List Byte) : FrameOfCommand.Statement (.readParam body) := by
  rintro f h -
  cases h
  rfl

theorem FrameOfCommand.writeRule (body : List Byte) : FrameOfCommand.Statement (.writeRule body) := by
  rintro f h -
  cases h
  rfl

theorem FrameOfCommand.readRule (body : List Byte) : FrameOfCommand.Statement (.readRule body) := by
  rintro f h -
  cases h
  rfl

theorem FrameOfCommand.relearn (body : List Byte) : FrameOfCommand.Statement (.relearn body) := by
  rintro f h -
  cases h
  rfl

theorem FrameOfCommand.storeConfig (body : List Byte) : FrameOfCommand.Statement (.storeConfig body) := by
  rintro f h -
  cases h
  rfl

theorem FrameOfCommand.standby (body : List Byte) : FrameOfCommand.Statement (.standby body) := by
  rintro f h -
  cases h
  rfl

theorem FrameOfCommand.restart (body : List Byte) : FrameOfCommand.Statement (.restart body) := by
  rintro f h -
  cases h
  rfl

theorem FrameOfCommand.clearWake (body : List Byte) : FrameOfCommand.Statement (.clearWake body) := by
  rintro f h -
  cases h
  rfl

theorem FrameOfCommand.serviceEnter (body : List Byte) : FrameOfCommand.Statement (.serviceEnter body) := by
  rintro f h -
  cases h
  rfl

theorem FrameOfCommand.serviceLeave (body : List Byte) : FrameOfCommand.Statement (.serviceLeave body) := by
  rintro f h -
  cases h
  rfl

theorem FrameOfCommand.serviceReset (body : List Byte) : FrameOfCommand.Statement (.serviceReset body) := by
  rintro f h -
  cases h
  rfl

theorem FrameOfCommand.commissionBegin (body : List Byte) : FrameOfCommand.Statement (.commissionBegin body) := by
  rintro f h -
  cases h
  rfl

theorem FrameOfCommand.commissionConfirm (body : List Byte) : FrameOfCommand.Statement (.commissionConfirm body) := by
  rintro f h -
  cases h
  rfl

theorem FrameOfCommand.readCapture (body : List Byte) : FrameOfCommand.Statement (.readCapture body) := by
  rintro f h -
  cases h
  rfl

theorem FrameOfCommand.releaseBegin (body : List Byte) : FrameOfCommand.Statement (.releaseBegin body) := by
  rintro f h -
  cases h
  rfl

theorem FrameOfCommand.releaseConfirm (body : List Byte) : FrameOfCommand.Statement (.releaseConfirm body) := by
  rintro f h -
  cases h
  rfl

theorem FrameOfCommand.clearFaults (body : List Byte) : FrameOfCommand.Statement (.clearFaults body) := by
  rintro f h -
  cases h
  rfl

theorem FrameOfCommand.function (body : List Byte) : FrameOfCommand.Statement (.function body) := by
  rintro f h -
  cases h
  rfl

theorem FrameOfCommand.clusterReport (body : List Byte) : FrameOfCommand.Statement (.clusterReport body) := by
  rintro f h -
  cases h
  rfl

theorem FrameOfCommand.fwStale : FrameOfCommand.Statement .fwStale := by
  rintro f h -
  cases h

theorem FrameOfCommand.linkSilent : FrameOfCommand.Statement .linkSilent := by
  rintro f h -
  cases h

theorem FrameOfCommand.scan (codes : ScanCodes) : FrameOfCommand.Statement (.scan codes) := by
  rintro f h -
  cases h

theorem FrameOfCommand.supplyWindowComplete : FrameOfCommand.Statement .supplyWindowComplete := by
  rintro f h -
  cases h

theorem FrameOfCommand.zeroWindowComplete (c : Circuit) : FrameOfCommand.Statement (.zeroWindowComplete c) := by
  rintro f h -
  cases h

theorem FrameOfCommand.settleExpiry (c : Circuit) : FrameOfCommand.Statement (.settleExpiry c) := by
  rintro f h -
  cases h

theorem FrameOfCommand.judgementInstant (c : Circuit) : FrameOfCommand.Statement (.judgementInstant c) := by
  rintro f h -
  cases h

theorem FrameOfCommand.standbyScan (codes : ScanCodes) : FrameOfCommand.Statement (.standbyScan codes) := by
  rintro f h -
  cases h

theorem FrameOfCommand.cadenceExpiry (c : Circuit) : FrameOfCommand.Statement (.cadenceExpiry c) := by
  rintro f h -
  cases h

theorem FrameOfCommand.rollSend : FrameOfCommand.Statement .rollSend := by
  rintro f h -
  cases h

theorem FrameOfCommand.assignSend : FrameOfCommand.Statement .assignSend := by
  rintro f h -
  cases h

theorem FrameOfCommand.visitStart : FrameOfCommand.Statement .visitStart := by
  rintro f h -
  cases h

theorem FrameOfCommand.repoll : FrameOfCommand.Statement .repoll := by
  rintro f h -
  cases h

theorem FrameOfCommand.chainFrameSent : FrameOfCommand.Statement .chainFrameSent := by
  rintro f h -
  cases h

theorem FrameOfCommand.chainAnswerComplete (frame : ChainFrame) : FrameOfCommand.Statement (.chainAnswerComplete frame) := by
  rintro f h -
  cases h

theorem FrameOfCommand.chainAnswerAbandon : FrameOfCommand.Statement .chainAnswerAbandon := by
  rintro f h -
  cases h

theorem FrameOfCommand.answerWindowClose : FrameOfCommand.Statement .answerWindowClose := by
  rintro f h -
  cases h

theorem FrameOfCommand.strayChainFrame (frame : ChainFrame) : FrameOfCommand.Statement (.strayChainFrame frame) := by
  rintro f h -
  cases h

theorem FrameOfCommand.visitTimeLimit : FrameOfCommand.Statement .visitTimeLimit := by
  rintro f h -
  cases h

theorem FrameOfCommand.pollCycleEnd : FrameOfCommand.Statement .pollCycleEnd := by
  rintro f h -
  cases h

theorem FrameOfCommand.standbyPollCycle : FrameOfCommand.Statement .standbyPollCycle := by
  rintro f h -
  cases h

theorem FrameOfCommand.holdoffExpiry : FrameOfCommand.Statement .holdoffExpiry := by
  rintro f h -
  cases h

theorem FrameOfCommand.agingSweep : FrameOfCommand.Statement .agingSweep := by
  rintro f h -
  cases h

theorem FrameOfCommand.lingerExpiry (entry : Nat) : FrameOfCommand.Statement (.lingerExpiry entry) := by
  rintro f h -
  cases h

theorem FrameOfCommand.reconcileExpiry : FrameOfCommand.Statement .reconcileExpiry := by
  rintro f h -
  cases h

theorem FrameOfCommand.captureWindowExpiry : FrameOfCommand.Statement .captureWindowExpiry := by
  rintro f h -
  cases h

theorem FrameOfCommand.releaseTimerExpiry : FrameOfCommand.Statement .releaseTimerExpiry := by
  rintro f h -
  cases h

theorem FrameOfCommand.serviceLineFall : FrameOfCommand.Statement .serviceLineFall := by
  rintro f h -
  cases h

theorem FrameOfCommand.serviceLineRise : FrameOfCommand.Statement .serviceLineRise := by
  rintro f h -
  cases h

theorem FrameOfCommand.storeWriteEnd (good : Bool) : FrameOfCommand.Statement (.storeWriteEnd good) := by
  rintro f h -
  cases h

end Sys2Proof.Laws
end

