-- ==== Sys2Proof/Tests/Slice0.lean ====
section
/-!
SUPPORT. Tests: the well-formedness checks, the numbers the manual works out, and one witness for each statement with
hypotheses. The expected results come from the sections of spec/ each test names.
-/
namespace Sys2Proof.Tests

-- One test after another: each waits for the kernel, and waiting in threads of their own they exhaust the memory limit.
set_option Elab.async false

open Sys2Proof.Machine

/-! ### The well-formedness checks refuse -/

/-- LEN is at most 120 (R165). -/
theorem test_bodyOf121_refused : WellFormed (.hostFrameValid 0x01 (List.replicate 121 0)) = false := by decide +kernel
theorem test_bodyOf120_taken : WellFormed (.identify (List.replicate 120 0)) = true := by decide +kernel
theorem test_requestBodyOf121_refused : WellFormed (.status (List.replicate 121 0)) = false := by decide +kernel
/-- UNKNOWN_KIND carries none of the host's codes (R199). -/
theorem test_unknownKindOfAHostKind_refused : WellFormed (.unknownKind 0x21 []) = false := by decide +kernel
/-- A completed chain frame holds LEN payload bytes (R18). -/
theorem test_incompleteChainFrame_refused :
    WellFormed (.chainAnswerComplete { addr := 0, ty := 2, len := 10, payload := [], crc := 0 }) = false ∧
      WellFormed (.strayChainFrame { addr := 0, ty := 2, len := 1, payload := [], crc := 0 }) = false := by decide +kernel
/-- Entry ids are 1 to 255 (R128). -/
theorem test_entryIds : WellFormed (.lingerExpiry 0) = false ∧ WellFormed (.lingerExpiry 256) = false ∧
    WellFormed (.lingerExpiry 1) = true ∧ WellFormed (.lingerExpiry 255) = true := by decide +kernel

/-! ### Frames and fields -/

/-- 09, section 9.1: the nine bytes 0x31 to 0x39 give 0x29B1. -/
theorem test_crc16 : crc16 [0x31, 0x32, 0x33, 0x34, 0x35, 0x36, 0x37, 0x38, 0x39] = 0x29B1#16 := by decide +kernel
/-- 11, R201: the nine bytes 0x31 to 0x39 give 0xF4. -/
theorem test_crc8 : crc8 [0x31, 0x32, 0x33, 0x34, 0x35, 0x36, 0x37, 0x38, 0x39] = 0xF4#8 := by decide +kernel
/-- 11, section 11.3: items 14, 11, 8, 4, 3 and 0 are 0x49 0x19. -/
theorem test_functionBody :
    (List.range 16).filter (fun n => (wordOf [0x49, 0x19]).getLsbD n) = [0, 3, 4, 8, 11, 14] := by decide +kernel
/-- 11, section 11.2: kinds of the tells and of the requests, and their body lengths. -/
theorem test_kindsRead :
    commandOfFrame { kind := 0x20, body := [0x49, 0x19] } = .function [0x49, 0x19] ∧
      commandOfFrame { kind := 0x15, body := [] } = .commissionConfirm [] ∧
      commandOfFrame { kind := 0x22, body := [] } = .unknownKind 0x22 [] ∧
      lengthGood { kind := 0x21, body := [1, 0, 5, 0x81] } = true ∧
      lengthGood { kind := 0x21, body := [9, 0] ++ List.replicate 18 0 } = false ∧
      lengthGood { kind := 0x0A, body := List.replicate 15 0 } = false := by decide +kernel
/-- 11, section 11.3: version in bits 0 to 3, the acknowledged flag in bit 7. -/
theorem test_triple : (reportContent [1, 3, 5, 0x8F]) =
    { triples := [{ id := 5, version := 15, acked := true }], overflow := 3 } := by decide +kernel
/-- R166: bytes before SYNC are passed over, and a LEN above 120 ends the frame at once. -/
theorem test_oversizeFrame : hunt [0x00, 0xC5, 121, 0xC5] = some (.hostFrameOversize, [0xC5]) := by decide +kernel
/-- R201: circuit 0 in the high half of the first byte, circuit 7 in the low half of the fourth. -/
theorem test_lampPositions : (lampsAt [0x41, 0, 0, 0x02] 0).toList = [4, 1, 0, 0, 0, 0, 0, 2] := by decide +kernel
/-- R201: current in bits 0 to 12, class in bit 13, outage flags in bits 14 to 17. -/
theorem test_reportFields :
    let r := reportOf ([0x0A, 0x41, 0xC3, 0xF2, 0x0B, 0x77, 0x01] ++ [0x00, 0xA0, 0xB2] ++ List.replicate 21 0)
    r.identity = 0x0A41C3F20B77#48 ∧ r.energized = 1 ∧ r.current.c0 = 178 ∧ r.cls.c0 = .regulated ∧
      r.outage.c0 = 2#4 := by decide +kernel
/-- 11, section 11.4: a REFUSED body is the kind and the reason code. -/
theorem test_refusedBody : (TxRecord.refused 0x14 .errorPending).body = [0x14, 11] := by decide +kernel

/-- R166: the receiver takes an IDENTIFY frame byte by byte behind noise, and a byte without its stop bit breaks one. -/
theorem test_receiver :
    let bytes := fun stop => (0x00 :: (HostFrame.bytes { kind := 0x01, body := [] })).map fun b =>
      { starts := 0, value := b, stop := stop || b != 0x01 : RxByte }
    let run := fun stop => (bytes stop).foldl
      (fun (acc : Receiver × List Instr) b => ((acc.1.take b).1, acc.2 ++ (acc.1.take b).2.toList)) (.hunting, [])
    run true = (.hunting, [.hostFrameValid 0x01 []]) ∧ run false = (.hunting, [.hostFrameBroken]) := by decide +kernel
/-- R165, R201: a start bit, the bits of 0xC5 least significant first, a stop bit. -/
theorem test_byteBits :
    byteBits 0xC5 = [false, true, false, true, false, false, false, true, true, true] := by decide +kernel

/-! ### Numbers the manual works out -/

/-- R72: 804 is stored as 800, 805 as 810 and 4997 as 5000. -/
theorem test_cadencePeriods : [804, 805, 4997, 100, 60000].map (storedParam .cadence) = [800, 810, 5000, 200, 5000] := by
  decide +kernel
/-- 05, limit cases: code 4095 at the default gain gives 29996 mA. -/
theorem test_saturatedSample : sampleCurrent 7325 4095 = 29996 := by decide +kernel
/-- 05, limit cases: nominal 20000 at 16000 mV, judged at 32000 mV, is clamped to 30000. -/
theorem test_adjustedClamp :
    adjusted 32000 { state := .known, cls := .filament, nominal := 20000, vref := 16000 } = 30000 := by decide +kernel

def defaultLevels : Levels := { factor := 1, tAbs := 40, tPm := 150, tOver := 300 }
def knownAs (cls : LampClass) (nominal vref : Nat) : Tracked :=
  { index := 0, lock := .opened, base := { state := .known, cls := cls, nominal := nominal, vref := vref } }
def reportWith (id : Identity) (current : Nat) (flags : BitVec 4) : Report :=
  { identity := id, energized := 0x01, current := (PerCircuit.fill 0).set 0 current, cls := PerCircuit.fill .filament,
    outage := (PerCircuit.fill 0#4).set 0 flags }
def workedSlot1 : SlotView :=
  { slot := 1, identity := 0x0A41C3F20B77#48, state := .present, lamps := PerCircuit.fill 0,
    report := some (reportWith 0x0A41C3F20B77#48 178 0),
    track := some (knownAs .regulated 180 0) }
def workedSlot2 : SlotView :=
  { slot := 2, identity := 0x5D0E92B41C08#48, state := .present, lamps := PerCircuit.fill 0,
    report := some (reportWith 0x5D0E92B41C08#48 845 2),
    track := some (knownAs .filament 1750 27600) }
def workedOffer : Offer :=
  { circuit := 0, time := 540, mean := 1872, zero := 12, volts := 26400, saturated := false, settleEnd := some 40,
    parked := false }

/-- 05, the worked case: r 837, E_r 837, pool GOOD for REMAINDER; slot 1 GOOD with 180 and 2, slot 2 OUTAGE with 1674
and 829. -/
theorem test_workedCase :
    let j := judgement defaultLevels workedOffer [workedSlot1, workedSlot2] (some (knownAs .filament 875 27600))
    j.residual = 837 ∧ j.expectation = some 837 ∧ j.pool = .good ∧ j.subject = some .remainder ∧
      j.batch.map (fun v => (v.kind, v.expected, v.deficit)) =
        [(none, 180, 2), (some .outage, 1674, 829), (none, 1023, -837), (none, 837, 0)] := by decide +kernel
/-- 05, the same instant with slot 2 unheard: r 1682, E_r 2511, OUTAGE for REMAINDER with deficit 829. -/
theorem test_workedCaseUnheard :
    let j := judgement defaultLevels workedOffer [workedSlot1, { workedSlot2 with report := none }]
      (some (knownAs .filament 875 27600))
    j.residual = 1682 ∧ j.expectation = some 2511 ∧ j.pool = .outage ∧ j.subject = some .remainder ∧
      (j.batch.getLast?.map fun v => (v.kind, v.expected, v.deficit)) = some (some .outage, 2511, 829) := by
  decide +kernel
/-- 05, limit cases: a residual of -40 is judged and one of -41 is DISAGREE, with 178 and 41. -/
theorem test_disagree :
    (judgement defaultLevels { workedOffer with mean := 150 } [workedSlot1] none).pool = .notMade ∧
      (judgement defaultLevels { workedOffer with mean := 149 } [workedSlot1] none).pool = .preempted ∧
      ((judgement defaultLevels { workedOffer with mean := 149 } [workedSlot1] none).batch.getLast?.map fun v =>
        (v.kind, v.expected, v.deficit)) = some (some .disagree, 178, 41) := by decide +kernel
/-- 05, limit cases: TAIL-L at F = 2, 600 expected and 430 reported is GOOD; at F = 1 it is OUTAGE. -/
theorem test_widened :
    knownKind { defaultLevels with factor := 2 } 0 (reportWith 0 430 0) 600 = none ∧
      knownKind defaultLevels 0 (reportWith 0 430 0) 600 = some .outage := by decide +kernel
/-- 12, sequence 1: slot 2's run restarts at 1745 and completes as 1750 mA at 27600 mV. -/
theorem test_learning :
    let step := fun (x : LoadCell) (v : Nat × Nat) => learnCell 40 3 v.1 v.2 .filament x
    ([(1690, 26800), (1745, 27560), (1752, 27600), (1753, 27640)].foldl step LoadCell.unknown).base =
      { state := .known, cls := .filament, nominal := 1750, vref := 27600 } := by decide +kernel
/-- 12, sequence 2: three OUTAGE outcomes make the record ACTIVE with sequence 1, and five GOOD ones remove it. -/
theorem test_debounce :
    let v : Verdict := { key := .lamp (.slot 2) 0, kind := some .outage, identity := none, expected := 1674, deficit := 829 }
    let f := (applyBatch Params.default [v, v, v] Flt.initial).1
    (recordAt f 0).map (fun r => (r.state, r.sequence)) = some (.active, some 1) ∧ fastFlashDue 0 f.records = true ∧
      recordCount (applyBatch Params.default (List.replicate 4 { v with kind := none }) f).1 = 1 ∧
      recordCount (applyBatch Params.default (List.replicate 5 { v with kind := none }) f).1 = 0 := by decide +kernel
/-- R75: with only item 15 on default rule 0 holds every circuit; with PARK on and IGNITION off rule 4 widens TAIL-L by 2. -/
theorem test_defaultRules :
    chooseAction defaultRules 0x8000 7 = (.hold, 1) ∧ chooseAction defaultRules 0x1000 3 = (.widen, 2) ∧
      chooseAction defaultRules 0x1800 3 = (.judge, 1) ∧ cadencePeriod defaultRules 0x0400 1 = some 800 := by
  decide +kernel

/-! ### States the witnesses start from -/

/-- A part in ACTIVE with a fresh word. -/
def active : State :=
  { State.reset with
    pwc := { State.reset.pwc with power := .active }
    hlc := { State.reset.hlc with stale := false, firstTell := false } }
def inService : State := { active with svc := { active.svc with line := true, mode := true } }
def unitA : Identity := 0x0A41C3F20B77#48
def slotA (state : SlotState) (misses : Nat) : Slot :=
  { identity := unitA, lamps := (PerCircuit.fill 0).set 0 2, state := state, misses := misses, latest := none }
def entryA (lock : Lock) : Entry := { freshEntry (.unit unitA) with lock := lock }
/-- One unit in the chain, tracked at index 0, and the entry of the empty signature at index 24. -/
def oneUnit (lock : Lock) (s : State) : State :=
  { s with
    clc := { s.clc with table := [slotA .present 0] }
    ldt := { s.ldt with
      entries := (s.ldt.entries.set 0 (some (entryA lock))).set 24 (some (freshEntry (.remainder [])))
      slotTrack := [some 0], signatureTrack := some (some 24) } }
def captureA (done : Bool) : Capture :=
  { target := .slot 1, identity := unitA, index := 0, circuits := 0x01
    records := [{ circuit := 0, count := 0, first := 0, sumValue := 0, sumVolt := 0,
                  captured := if done then some { nominal := 1750, cls := .filament, vref := 27600 } else none }] }
def capturing (done : Bool) : State :=
  let s := oneUnit .opened inService
  { s with svc := { s.svc with state := .capturing, capture := some (captureA done), captureTimer := some captureTime } }
def releasing : State :=
  let s := oneUnit .commissioned inService
  { s with svc := { s.svc with
      state := .releasePending, release := some { index := 0, identity := unitA, expires := releaseTime } } }
def writing : State :=
  { inService with
    svc := { inService.svc with
      state := .writing
      write := some { op := .commission, target := .subject (.slot 1), index := 0, block := .loadsA, begun := true,
                      aborted := false } }
    stc := { inService.stc with writing := some .loadsA } }
def standby : State :=
  { active with pwc := { active.pwc with power := .standby }, clc := { active.clc with standbyCycle := 9750000 } }
/-- A part whose standby entry waits for its last LOADS write. -/
def entering : State :=
  { active with pwc := { active.pwc with standbyEntry := true }, stc := { active.stc with writing := some .loadsB } }
def emptyCensus : CensusRun := { table := [], answered := 0, silent := 0, duplicates := 0, beyond := 0 }
def census (line : Line) (task : Option ChainTask) (run : CensusRun) : State :=
  { active with clc := { active.clc with census := some run, censusNumber := 2, line := line, task := task } }
def assignA (repeated : Bool) : Assign :=
  { node := { identity := unitA, lamps := PerCircuit.fill 0 }, choice := .slot, slot := 1, repeated := repeated }
/-- A visit to slot 1 whose answer window is open. -/
def visiting (x : Slot) (s : State) : State :=
  { s with clc := { s.clc with
      table := [x], line := .window .poll 10000
      visit := some { slot := 1, limit := 40000, repolls := 0, repollDue := none }
      cycle := some { pos := 1, start := 0, ended := some 0, closing := false } } }
def sensing (c : Circuit) (f : CircuitSense → CircuitSense) (s : State) : State :=
  { s with sfe := { s.sfe with circuits := s.sfe.circuits.set c (f (s.sfe.circuits.get c)) } }
def windowOf (current supply : Nat) : Window :=
  { len := 8, sumCurrent := 8 * current, sumSupply := 8 * supply, count := 8, saturated := false }
def recordA (state : RecordState) (suspect heal : Nat) : FaultRecord :=
  { key := .cadence 0, identity := none, kind := .cadence, state := state, suspect := suspect, heal := heal,
    sequence := some 1, acked := false, entryId := some 1, lastExpected := 0, lastDeficit := 0 }
def holding (r : FaultRecord) : Flt := { Flt.initial with records := Flt.initial.records.set 0 (some r) }
def entryOne (state : DisplayState) : DisplayEntry :=
  { id := 1, kind := .cadence, circuit := some 0, subject := none, identity := none, severity := 7, state := state,
    version := 0, sequence := 1, linger := if state = .resolved then some (.running 60000000) else none }
def listing (state : DisplayState) (s : State) : State := { s with dsr := { s.dsr with list := [entryOne state] } }

/-- The next state a command gives, where it gives one. -/
def after (i : Instr) (s : State) : Option State :=
  match exec i s with
  | .next t => some t
  | _ => none

theorem test_active_listens : Listening active ∧ Listening inService ∧ Listening (capturing true) ∧
    Listening releasing ∧ Listening writing ∧ Listening (oneUnit .opened active) ∧
    Listening (oneUnit .commissioned inService) := by
  refine ⟨?_, ?_, ?_, ?_, ?_, ?_, ?_⟩ <;> exact ⟨rfl, rfl, rfl, rfl, ⟨rfl, rfl, rfl⟩, rfl, rfl, rfl, rfl⟩
theorem test_reset_starts : Starting State.reset := ⟨rfl, rfl, rfl, rfl, ⟨rfl, rfl, rfl⟩, rfl, rfl, rfl⟩

/-- R200: 12 bytes and 70 a slot, whether a report is held or not; 20 bytes and 16 a record, captured or not. -/
theorem test_contentLengths :
    let held : LatestReport := { report := reportOf (List.replicate 31 0), arrival := 0 }
    let s := { capturing true with
      clc := { (capturing true).clc with table := [slotA .lost 8, { slotA .present 0 with latest := some held }] } }
    (chainContent (chainReport s)).length = 152 ∧ (captureContent (captureReport s)).length = 36 ∧
      (captureContent (captureReport (capturing false))).length = 36 ∧
      (captureContent (captureReport active)).length = 20 := by decide +kernel
/-- A frame that waits, of an empty body. -/
def waits (kind : Byte) : Waiting := { frame := { kind := kind, body := [] }, cancelled := false, woke := false }
/-- R151, R188, R190: a SERVICE-ENTER that waits behind an accepted STANDBY cancels the entry and is refused BUSY. -/
theorem test_waitingFrameCancels :
    let s := { inService with
      svc := { inService.svc with mode := false }
      hlc := { inService.hlc with processing := some (waits 0x0E), buffer := some (waits 0x11) } }
    ((after (.standby []) s).bind (after (.serviceEnter []))).map (fun t =>
      (replies t.hlc, t.pwc.standbyEntry, t.svc.mode, t.stc.writing, t.stc.queue)) =
      some ([.ok 0x0E, .refused 0x11 .busy], false, false, some .loadsA, []) := by decide +kernel
/-- R45, R53: a remainder baseline that is not KNOWN is handed with the circuit's present legacy class. -/
theorem test_legacyClassHandedOver :
    let s := oneUnit .opened active
    let t := { s with params := { s.params with legacyClass := s.params.legacyClass.set 3 .regulated } }
    ((remainderView t 3).map (fun x => x.base.cls), (remainderView t 2).map (fun x => x.base.cls)) =
      (some .regulated, some .filament) := by decide +kernel
/-- R35: a stray frame after the last visit of a cycle moves no cycle end, which is 21 ms after that visit. -/
theorem test_cycleEndAfterAStrayFrame :
    let s0 := visiting (slotA .present 0) active
    let s := { s0 with now := 15000, clc := { s0.clc with visit := none, line := .idle, idleFrom := 15000 } }
    (after .pollCycleEnd s).map (fun t => (t.now, t.clc.cycleCounter)) = some (21000, 1) := by decide +kernel
/-- R41: the last visit of a standby cycle ends the cycle and steps the counter; in ACTIVE 21 ms follow (R35). -/
theorem test_standbyCycleEndsWithItsVisit :
    let silent := fun p : State => (after .answerWindowClose (visiting (slotA .present 0) p)).map fun t =>
      (t.now, t.clc.cycle.isSome, t.clc.cycleCounter)
    silent standby = some (10000, false, 1) ∧ silent active = some (10000, true, 0) := by decide +kernel
/-- R105, R121: a record with no activation sequence shows it absent, apart from sequence 0. -/
theorem test_absentSequence :
    recordBytes { recordA .suspect 1 0 with sequence := none } ≠ recordBytes { recordA .suspect 1 0 with sequence := some 0 } :=
  by decide +kernel
/-- R167: of three valid frames in a row the second waits and the third is an OVERRUN. -/
theorem test_threeFrames :
    let f := fun (k : Byte) (o : Option State) => o.bind (after (.hostFrameValid k []))
    (f 3 (f 2 (f 1 (some active)))).map (fun t =>
      (t.hlc.processing.map (·.frame.kind), t.hlc.buffer.map (·.frame.kind), t.hlc.overrun)) =
      some (some 1, some 2, 1) := by decide +kernel

/-! ### One witness for each statement with hypotheses, every clause of it -/

/-- A frame in processing; one while a RESTART is accepted; a byte that ends now and one a microsecond later; a gap of
5 ms and one of a microsecond more, with a byte behind it and without. -/
theorem witness_AnEmptyQueueTakesTheWaitingFrame :
    let frame : Waiting := { frame := { kind := 0x01, body := [] }, cancelled := false, woke := false }
    let processing := { active with hlc := { active.hlc with processing := some frame } }
    let restarting := { processing with pwc := { active.pwc with restartPending := true } }
    let hearing := fun (t : Nat) (r : Receiver) (bytes : List RxByte) =>
      { active with now := t, hlc := { active.hlc with receiver := r, wire := bytes } }
    let sync : RxByte := { starts := 0, value := syncByte, stop := true }
    let late : RxByte := { starts := frameGap + 1, value := 0, stop := true }
    (processing.pending = [] ∧ processing.hlc.processing = some frame ∧ processing.pwc.held = false ∧
        processing.pwc.restartPending = false) ∧
      (restarting.pwc.held = false ∧ restarting.pwc.restartPending = true) ∧
      (∀ t ∈ [hostByteTime - 1, hostByteTime],
        (hearing t .hunting [sync]).hlc.wire = sync :: [] ∧ (hearing t .hunting [sync]).hlc.processing = none) ∧
      ((hearing frameGap (.receiving [] 0) []).now ≤ 0 + frameGap ∧
        0 + frameGap < (hearing (frameGap + 1) (.receiving [] 0) [late]).now ∧
        (∀ b, (hearing (frameGap + 1) (.receiving [] 0) [late]).hlc.wire.head? = some b → 0 + frameGap < b.starts) ∧
        ∃ b, (hearing (frameGap + 1) (.receiving [] 0) [sync]).hlc.wire.head? = some b ∧ b.starts ≤ 0 + frameGap) ∧
      { active.pwc with held := true }.held = true := by
  refine ⟨by decide +kernel, by decide +kernel, by decide +kernel, ⟨by decide +kernel, by decide +kernel, ?_, ?_⟩, rfl⟩
  · intro b h
    obtain rfl : _ = b := Option.some.inj h
    decide +kernel
  · exact ⟨_, rfl, by decide +kernel⟩

theorem witness_AnEventEndsWithItsLinesAndItsNotice :
    State.reset.pwc.power ≠ .active ∧
      (let s := { active with hlc := { active.hlc with changes := [.voltage] } }
       s.pwc.power = .active ∧ waking s = false ∧ s.hlc.changes ≠ []) := by decide +kernel

/-- A part right after reset, its store load at the front of the queue. -/
def started : State := { State.reset with pending := [.storeLoadDone] }

theorem witness_EveryStepKeepsTheLines : LinesLaw started ∧ PowerLaw started ∧ ∃ t, step started = .next t :=
  ⟨⟨rfl, rfl⟩, by unfold PowerLaw; decide +kernel, _, rfl⟩
/-- A frame marked as having woken the part is at hand in ACTIVE only. -/
theorem test_wakingInStart :
    let woke : Waiting := { frame := { kind := 0x01, body := [] }, cancelled := false, woke := true }
    ¬ PowerLaw { State.reset with hlc := { State.reset.hlc with processing := some woke } } ∧
      PowerLaw { active with hlc := { active.hlc with processing := some woke } } := by
  unfold PowerLaw
  decide +kernel
theorem witness_EveryStepKeepsTheTableSizes : SizesLaw started ∧ ListLaw started ∧ ∃ t, step started = .next t :=
  ⟨⟨rfl, rfl, rfl, rfl, rfl, rfl⟩, by unfold ListLaw; decide +kernel, _, rfl⟩
theorem witness_EveryStepKeepsTheChainTable : ChainLaw started ∧ ∃ t, step started = .next t :=
  ⟨⟨⟨by decide +kernel, by decide +kernel⟩, fun _ h => nomatch h⟩, _, rfl⟩
theorem test_reset_flash : FlashLaw started.flt := by
  intro c _
  constructor
  · intro h
    split at h <;> cases h
  · rintro ⟨r, t, h, -⟩
    simp [started, State.reset, Flt.initial] at h
theorem witness_EveryStepKeepsTheFaultKeys :
    ChainLaw started ∧ KeysLaw started.flt ∧ FlashLaw started.flt ∧ ∃ t, step started = .next t :=
  ⟨⟨⟨by decide +kernel, by decide +kernel⟩, fun _ h => nomatch h⟩, by unfold KeysLaw; decide +kernel,
    test_reset_flash, _, rfl⟩

theorem witness_AFrameWaitsAndIsThenProcessed : Listening active := test_active_listens.1
/-- Entry 27, record 31 and rule 31 are the last; entry 11 is the last of LOADS-A, which is being written. -/
theorem witness_IndexedReadsAnswer :
    Listening active ∧ active.svc.state = .idle ∧ ¬ 27 < (27 : Byte).toNat ∧ 27 < (28 : Byte).toNat ∧
      (11 : Byte).toNat < 12 ∧ ¬ 31 < (31 : Byte).toNat ∧ 31 < (32 : Byte).toNat :=
  ⟨test_active_listens.1, rfl, by decide, by decide, by decide, by decide, by decide⟩
theorem witness_DisplayRepliesAndSendsTheList : Listening active ∧ active.svc.state = .idle :=
  ⟨test_active_listens.1, rfl⟩
theorem witness_CensusRequestStartsACensus :
    (Listening active ∧ active.svc.state = .idle ∧ active.clc.census = none) ∧
      Listening (census .idle (some .roll) emptyCensus) ∧
      (census .idle (some .roll) emptyCensus).clc.census = some emptyCensus :=
  ⟨⟨test_active_listens.1, rfl, rfl⟩, ⟨rfl, rfl, rfl, rfl, ⟨rfl, rfl, rfl⟩, rfl, rfl, rfl, rfl⟩, rfl⟩
theorem witness_ParametersStoreTheirRange :
    paramStore Params.default 1 0 999 = some { Params.default with gain := Params.default.gain.set 0 1000 } ∧
      (paramStore Params.default 16 0 31).map (·.window) = some 16 ∧
      (paramStore Params.default 23 0 7).isSome = true ∧ paramStore Params.default 23 0 8 = none ∧
      (24 : Nat) ∉ [1, 2, 3, 4, 5, 6, 7, 16, 17, 18, 19, 20, 21, 22, 23] ∧ 7 < (8 : Nat) := by decide +kernel

theorem witness_AHostFrameReadsBack :
    (List.replicate 120 (0 : Byte)).length ≤ maxBody ∧ ([] : List Byte).length ≤ maxBody ∧
      syncByte ∉ ([0x00, 0xC4] : List Byte) := by decide +kernel

theorem witness_TheLinkTestsComeFirst :
    (Listening active ∧ Starting State.reset) ∧ isHostKind 0x22 = false ∧ isHostKind 0xFF = false ∧
      (isHostKind 0x21 = true ∧ lengthGood { kind := 0x21, body := [9, 0] } = false) ∧
      (isHostKind 0x03 = true ∧ lengthGood { kind := 0x03, body := [] } = true ∧ (0x03 : Byte) ≠ 0x01 ∧
        (0x03 : Byte) ≠ 0x02) := ⟨⟨test_active_listens.1, test_reset_starts⟩, by decide +kernel⟩

theorem witness_RequestsDuringAServiceOperation :
    (active.svc.mode = false ∧ lengthGood { kind := 0x19, body := [] } = true ∧ isHostKind 0x19 = true) ∧
      (inService.svc.state = .idle ∧ lengthGood { kind := 0x18, body := List.replicate 7 0 } = true) ∧
      (writing.svc.state = .writing ∧ writing.svc.mode = true ∧ lengthGood { kind := 0x12, body := [] } = true) ∧
      (let off := { writing with svc := { writing.svc with mode := false } }
       off.svc.state = .writing ∧ off.svc.mode = false ∧
        (0x12 : Byte).toNat ∉ [0x01, 0x02, 0x20, 0x21] ∧ (0x12 : Byte).toNat ∉ [0x13, 0x14, 0x17, 0x19, 0x0D] ∧
        (0x0D : Byte).toNat ∉ [0x01, 0x02, 0x20, 0x21]) ∧
      ((capturing true).svc.state = .capturing ∧ (capturing true).svc.mode = true ∧
        (capturing true).svc.capture = some (captureA true) ∧ lengthGood { kind := 0x0D, body := [] } = true) ∧
      (releasing.svc.state = .releasePending ∧ releasing.svc.mode = true ∧
        releasing.svc.release = some { index := 0, identity := unitA, expires := releaseTime }) := by decide +kernel

theorem witness_AValidFrameOverrunsReportsOrCancels :
    let one : Waiting := { frame := { kind := 0x02, body := [] }, cancelled := false, woke := false }
    let s1 := { active with hlc := { active.hlc with processing := some one } }
    let s2 := { active with hlc := { active.hlc with processing := some one, buffer := some one } }
    let s3 := { active with hlc := { active.hlc with silent := true } }
    let s4 := { active with hlc := { active.hlc with processing := some (waits 0x0E), buffer := some one } }
    (s1.pwc.held = false ∧ s1.pwc.power = .active ∧ s1.hlc.changes = [] ∧ LinesLaw s1 ∧ s1.hlc.processing = some one ∧
      s1.hlc.buffer = none ∧ s1.pwc.standbyEntry = false ∧ s1.hlc.silent = false) ∧
    (LinesLaw s2 ∧ s2.hlc.buffer = some one ∧ s2.pwc.restartPending = false ∧ s2.pwc.standbyEntry = false) ∧
    (LinesLaw s4 ∧ s4.hlc.processing = some (waits 0x0E) ∧ s4.hlc.buffer = some one ∧ s4.pwc.restartPending = false ∧
      s4.pwc.standbyEntry = false ∧ s4.svc.mode = false ∧ s4.svc.state = .idle) ∧
    (s3.pwc.power = .active ∧ s3.hlc.changes = [] ∧ LinesLaw s3 ∧ s3.hlc.processing = none ∧ s3.hlc.buffer = none ∧
      s3.hlc.silent = true) ∧
    (entering.pwc.held = false ∧ entering.pwc.power = .active ∧ LinesLaw entering ∧ Free entering.hlc ∧
      entering.pwc.standbyEntry = true ∧ entering.hlc.silent = false ∧ entering.pwc.restartPending = false) :=
  ⟨⟨rfl, rfl, rfl, ⟨rfl, rfl⟩, rfl, rfl, rfl, rfl⟩, ⟨⟨rfl, rfl⟩, rfl, rfl, rfl⟩, ⟨⟨rfl, rfl⟩, rfl, rfl, rfl, rfl, rfl, rfl⟩,
    ⟨rfl, rfl, ⟨rfl, rfl⟩, rfl, rfl, rfl⟩,
    ⟨rfl, rfl, ⟨rfl, rfl⟩, ⟨rfl, rfl, rfl⟩, rfl, rfl, rfl⟩⟩

/-- Fresh at 499,999 microseconds of tell age and stale at 500,000 (R171). -/
theorem witness_AValidFrameWakesThePart :
    let late := { standby with now := freshPeriod }
    let early := { standby with now := freshPeriod - 1 }
    standby.pwc.held = false ∧ standby.pwc.restartPending = false ∧ standby.pwc.power = .standby ∧
      standby.pwc.standbyEntry = false ∧ standby.hlc.processing = none ∧ standby.hlc.buffer = none ∧
      isHostKind 0x22 = false ∧ standby.clc.census = none ∧ standby.svc.state ≠ .capturing ∧
      (late.hlc.stale || decide (late.hlc.lastTell + freshPeriod ≤ late.now)) = true ∧
      (early.hlc.stale || decide (early.hlc.lastTell + freshPeriod ≤ early.now)) = false ∧
      (∀ c : Circuit, 0 < standby.params.settle.get c) ∧
      (let atOnce := { standby with params := { standby.params with settle := PerCircuit.fill 0 } }
       atOnce.pwc.power = .standby ∧ (∀ c : Circuit, atOnce.params.settle.get c = 0) ∧
        (let silent := { atOnce with hlc := { atOnce.hlc with silent := true, word := 0x0001 } }
         silent.hlc.silent = true ∧ silent.hlc.word.getLsbD 0 = true ∧ silent.hlc.word.getLsbD 1 = false)) := by
  decide +kernel
/-- R7, R16, R172: at the wake with a settle time of 0 a circuit whose item is on is ON-SETTLED at once, and a SILENT link
is NORMAL. -/
theorem test_wakeAtOnce :
    let s := { standby with
      params := { standby.params with settle := PerCircuit.fill 0 }
      hlc := { standby.hlc with silent := true, word := 0x0001 } }
    (after (.hostFrameValid 0x01 []) s).map (fun t =>
      ((t.sfe.circuits.get 0).phase, (t.sfe.circuits.get 1).phase, t.hlc.silent, t.hlc.changes)) =
      some (.onSettled, .offSettled, false, [.link]) := by decide +kernel

/-- LEN 120 and 121 are the boundaries; an IDENTIFY frame's bytes behind its SYNC are 00, 01 and the CRC. -/
theorem witness_BadFramesAreCountedAndSentOnesFollowed :
    active.pwc.held = false ∧ (120 : Byte).toNat ≤ 120 ∧ 120 < (121 : Byte).toNat ∧
      ([] : List Byte).length = (0 : Byte).toNat ∧ ([0x01, 0x2A] : List Byte).length < (0 : Byte).toNat + 3 ∧
      ¬ ([0x01, 0x2A, 0x33] : List Byte).length < (0 : Byte).toNat + 3 := by decide +kernel

theorem witness_TheTwoTimersOfTheLink :
    let s := { active with hlc := { active.hlc with silence := some silencePeriod } }
    s.pwc.held = false ∧ s.pwc.power = .active ∧ s.hlc.stale = false ∧ s.hlc.silence = some silencePeriod := by
  decide +kernel

/-- READ-CHAIN and READ-CAPTURE where R154 passes them on. -/
theorem witness_WholeReadsAnswer : active.svc.state = .idle ∧ (capturing false).svc.state = .capturing := by decide +kernel

theorem witness_SetParamStoresAndReplies :
    paramStore active.params 24 0 ((0 : Byte).toNat * 256 + (0 : Byte).toNat) = none ∧
      ((paramStore active.params 16 0 3).isSome = true ∧ paramValue active.params 16 0 = some 8) ∧
      ((paramStore active.params 18 0 9).isSome = true) ∧ ((paramStore active.params 6 7 0).isSome = true) := by
  decide +kernel

theorem witness_WriteRuleStoresTheAdjustedRule :
    let body : List Byte := [31, 1, 1, 0xFF, 0x80, 0, 0xFF, 0xFF, 31, 0, 0, 0, 0, 3, 0x03, 0x25]
    body.length = 16 ∧ (byteAt body 0).toNat ≤ 31 ∧ (byteAt body 8).toNat ≤ 31 ∧ (byteAt body 2).toNat ≤ 1 ∧
      (byteAt body 13).toNat ≤ 3 ∧ 31 < (byteAt (32 :: body.tail) 0).toNat ∧ active.hlc.stale = false ∧
      ((ruleOf body).map fun x => (x.1, (adjustRule x.2).param, (adjustRule x.2).value)) = some (31, 810, 0x8000) := by
  decide +kernel

theorem witness_StoreConfigAsksForTwoWrites :
    let off := { writing with svc := { writing.svc with mode := false } }
    active.stc.writing = none ∧ { active.stc with writing := some .loadsB }.writing = some .loadsB ∧
      (off.svc.mode = false ∧ off.svc.state = .writing ∧ off.stc.writing = some .loadsA) := by decide +kernel

theorem witness_StandbyBeginsAnEntry :
    (inService.svc.mode = true ∧ inService.svc.state = .idle) ∧ (active.svc.mode = false ∧ active.svc.state = .idle) ∧
      active.clc.census = none ∧ (census .idle (some .roll) emptyCensus).clc.census = some emptyCensus ∧
      Listening (census .idle (some .roll) emptyCensus) :=
  ⟨⟨rfl, rfl⟩, ⟨rfl, rfl⟩, rfl, rfl, ⟨rfl, rfl, rfl, rfl, ⟨rfl, rfl, rfl⟩, rfl, rfl, rfl, rfl⟩⟩

theorem witness_RestartWaitsForItsReply :
    let s1 := { active with stc := { active.stc with queue := [.rules] } }
    let s2 := { active with pwc := { active.pwc with restartPending := true } }
    (Listening s1 ∧ s1.svc.state = .idle ∧ s1.stc.queue ≠ []) ∧ (active.stc.writing = none ∧ active.stc.queue = []) ∧
      (s2.pwc.held = false ∧ s2.pwc.restartPending = true ∧ (.ok 0x0F) ∉ outgoing s2.hlc) :=
  ⟨⟨⟨rfl, rfl, rfl, rfl, ⟨rfl, rfl, rfl⟩, rfl, rfl, rfl, rfl⟩, rfl, by decide⟩, ⟨rfl, rfl⟩, ⟨rfl, rfl, by decide +kernel⟩⟩

theorem witness_ClearWakeClearsTheNamedFlags : 7 < (8 : Byte).toNat ∧ (7 : Byte).toNat ≤ 7 := by decide

theorem witness_RelearnForgetsTheNamedCircuits :
    let s := oneUnit .opened active
    let locked := oneUnit .commissioned active
    subjectOf 7 = none ∧ subjectOf 1 = some (.slot 1) ∧ subjectOf 15 = some .remainder ∧ subjectOf 6 = some (.slot 6) ∧
      s.clc.census = none ∧ (servingIndex s.ldt (.slot 6)).bind (entryAt s.ldt) = none ∧
      servingIndex s.ldt (.slot 1) = some 0 ∧ entryAt s.ldt 0 = some (entryA .opened) ∧
      entryAt locked.ldt 0 = some (entryA .commissioned) ∧
      (let lamp := { entryOne .resolved with kind := .outage, subject := some (.slot 1) }
       lamp.state = .resolved ∧ lamp.kind ∈ [Kind.outage, .unitLost, .overload] ∧
        lamp.circuit.any (fun c => (0x01 : CircuitSet).getLsbD c.val) = true ∧
        lamp.circuit.any (fun c => (0x02 : CircuitSet).getLsbD c.val) = false) ∧
      (census .idle (some .roll) emptyCensus).clc.census.isSome = true := by decide +kernel

theorem witness_ServiceModeRequests :
    (inService.svc.state = .idle ∧ inService.svc.line = true) ∧ active.svc.line = false ∧
      ((capturing false).svc.state = .capturing ∧ (capturing false).svc.capture = some (captureA false)) ∧
      (releasing.svc.state = .releasePending ∧ releasing.svc.release.isSome = true) ∧
      (inService.svc.mode = true ∧ inService.svc.state ≠ .writing) := by decide +kernel

theorem witness_CommissionBeginStartsACapture :
    let s := oneUnit .opened inService
    let lost := { s with clc := { s.clc with table := [slotA .lost 8] } }
    (s.svc.state = .idle ∧ s.svc.mode = true ∧ s.svc.sticky = Sticky.none) ∧
      anySticky { Sticky.none with store := true } = true ∧ subjectOf 0 = none ∧
      (subjectOf 1 = some (.slot 1) ∧ (0x01 : CircuitSet) ≠ 0 ∧ s.clc.census = none ∧
        servingIndex s.ldt (.slot 1) = some 0 ∧ entryAt s.ldt 0 = some (entryA .opened) ∧
        slotOf s 1 = some (slotA .present 0) ∧
        (∀ c : Circuit, 1 ≤ (slotA .present 0).lamps.get c → (0x01 : CircuitSet).getLsbD c.val = true) ∧
        (∃ c : Circuit, 1 ≤ (slotA .present 0).lamps.get c ∧ (0x02 : CircuitSet).getLsbD c.val = false)) ∧
      (slotOf lost 1 = some (slotA .lost 8) ∧ (slotA .lost 8).state ≠ .present) ∧
      (entryAt (oneUnit .commissioned inService).ldt 0 = some (entryA .commissioned)) ∧
      (servingIndex s.ldt .remainder = some 24 ∧ entryAt s.ldt 24 = some (freshEntry (.remainder []))) ∧
      (servingIndex s.ldt (.slot 2)).bind (entryAt s.ldt) = none ∧
      slotOf { s with clc := { s.clc with table := [] } } 1 = none := by decide +kernel

theorem witness_CommissionConfirmWritesOrEnds :
    let id : List Byte := [0x0A, 0x41, 0xC3, 0xF2, 0x0B, 0x77]
    id.length = 6 ∧ (capturing true).svc.state = .capturing ∧ (capturing true).svc.capture = some (captureA true) ∧
      subjectOf 1 = some (captureA true).target ∧ identityAt id 0 = (captureA true).identity ∧
      subjectOf 2 ≠ some (captureA true).target ∧ (∀ r ∈ (captureA true).records, r.captured ≠ none) ∧
      (∃ r ∈ (captureA false).records, r.captured = none) ∧
      entryAt (capturing true).ldt (captureA true).index = some (entryA .opened) ∧
      (capturing true).stc.writing = none ∧
      { (capturing true).stc with writing := some .config }.writing = some .config := by decide +kernel

theorem witness_ReleaseBeginAndConfirm :
    let s := oneUnit .commissioned inService
    (s.svc.state = .idle ∧ s.svc.mode = true ∧ s.svc.sticky = Sticky.none ∧ 27 < (28 : Byte).toNat ∧
      (27 : Byte).toNat ≤ 27 ∧ entryAt s.ldt 27 = none ∧ entryAt s.ldt 0 = some (entryA .commissioned)) ∧
    (releasing.svc.state = .releasePending ∧
      releasing.svc.release = some { index := 0, identity := unitA, expires := releaseTime } ∧ (1 : Byte).toNat ≠ 0 ∧
      identityAt [0x0A, 0x41, 0xC3, 0xF2, 0x0B, 0x77] 0 = unitA ∧
      entryAt releasing.ldt 0 = some (entryA .commissioned) ∧ releasing.stc.writing = none) := by decide +kernel

theorem witness_ClearFaultsLeavesNodeLost : inService.svc.state = .idle ∧ inService.svc.mode = true := by decide

/-- A part ACTIVE at 14 ms whose windows of circuits 0 (ON-SETTLED, its item on) and 1 (OFF-SETTLED) the scan of this
moment has filled, so that both are due at 16 ms. -/
def scanned (volts : Nat) : State :=
  let full := fun (p : Phase) (i : Nat) (x : CircuitSense) =>
    { x with phase := p, done := some (windowOf i volts, 16000), settleEnd := if p = .onSettled then some 0 else none }
  sensing 0 (full .onSettled 1872) (sensing 1 (full .offSettled 37)
    { active with now := 14000, hlc := { active.hlc with word := 0x0001, lastTell := 14000 } })

/-- The summary of circuit 0, the zero reference of circuit 1, and which of the two have a window due. -/
def sensed (s : State) : Option (Nat × Nat) × Nat × Bool × Bool :=
  ((s.jge.summaries.get 0).map fun x => (x.time, x.mean), (s.sfe.circuits.get 1).zero,
    (s.sfe.circuits.get 0).done.isSome, (s.sfe.circuits.get 1).done.isSome)

/-- R6: a tell taken after the scan of its moment lets the windows complete before the edges, circuit 0 with its instant
and circuit 1 with its zero update; one that changes neither item leaves them due. -/
theorem test_scanBeforeTheTell :
    (after (.function [0x00, 0x02]) (scanned 24000)).map sensed = some (some (16000, 1872), 37, false, false) ∧
      (after (.function [0x00, 0x01]) (scanned 24000)).map sensed = some (none, 0, true, true) := by decide +kernel

/-- R178: the tell that wakes the part, with a scan of its moment before it, makes no STATUS-CHANGE but the one of leaving
standby, which VOLTAGE goes out in. -/
theorem test_wakingTellMakesOneNotice :
    let s := { scanned 15000 with hlc := { (scanned 15000).hlc with
      processing := some { frame := { kind := 0x20, body := [0, 0] }, cancelled := false, woke := true } } }
    (after (.function [0, 0]) s).map (fun t =>
      ((outgoing t.hlc).filter TxRecord.isStatusChange).map (fun r => decide (.voltage ∈ r.changeSet))) =
      some [true] ∧
    (after (.function [0, 0]) s).map (fun t => t.hlc.sending.any TxRecord.isSnapshot) = some true := by decide +kernel

/-- A COUPLED edge, the first tell, the tell that ends staleness, a CADENCE set that matches, and two windows that the
scan of this moment has filled. -/
theorem witness_AFunctionTellChangesTheWord :
    (0x4000#16 : FunctionWord) = 0x40#8 ++ 0x00#8 ∧
      (active.hlc.firstTell = false ∧ active.hlc.stale = false ∧
        active.hlc.word.getLsbD 14 ≠ (0x4000#16).getLsbD 14) ∧
      (let s := { active with hlc := { active.hlc with stale := true, firstTell := true } }
       Listening s ∧ s.hlc.stale = true ∧ s.hlc.firstTell = true) ∧
      cadencePeriod active.jge.rules 0x0100 0 = some 800 ∧ cadencePeriod active.jge.rules 0x4000 0 = none ∧
      (cadencePeriod active.jge.rules 0x0101 0 = some 800 ∧ active.hlc.word.getLsbD 0 = false ∧
        (0x0101#16).getLsbD 0 = true) ∧
      (∀ v ∈ [15999, 16000], Listening (scanned v)) ∧ (scanned 24000).hlc.stale = false ∧
      ((scanned 24000).sfe.circuits.get 0).done = some (windowOf 1872 24000, (scanned 24000).now + 2000) :=
  ⟨by decide, ⟨rfl, rfl, by decide⟩, ⟨⟨rfl, rfl, rfl, rfl, ⟨rfl, rfl, rfl⟩, rfl, rfl, rfl, rfl⟩, rfl, rfl⟩, by decide +kernel,
    by decide +kernel, by decide +kernel, fun _ _ => ⟨rfl, rfl, rfl, rfl, ⟨rfl, rfl, rfl⟩, rfl, rfl, rfl, rfl⟩, rfl,
    by decide +kernel⟩

theorem witness_AClusterReportIsMatched :
    let body : List Byte := [0, 0]
    let other : List Byte := [0, 1]
    let inStep := active
    let pending := { active with dsr := { active.dsr with mirror := .pending } }
    let acked : Triple := { id := 1, version := 0, acked := true }
    lengthGood { kind := 0x21, body := body } = true ∧
      rebuildList active.params active.flt active.dsr = (active.flt, active.dsr) ∧
      (∀ t ∈ (reportContent body).triples, t.acked = false) ∧ reportMatches (reportContent body) active.dsr = true ∧
      (reportMatches (reportContent other) inStep.dsr = false ∧ inStep.dsr.mirror = .inStep) ∧
      (reportMatches (reportContent other) pending.dsr = false ∧ pending.dsr.mirror ≠ .inStep) ∧
      (∀ d ∈ [DisplayState.new, .acked, .resolved],
        (listing d active).dsr.list.find? (fun e => e.id = acked.id) = some (entryOne d) ∧
          (entryOne d).version = acked.version ∧ (entryOne d).state = d) ∧
      active.dsr.list.find? (fun e => e.id = acked.id) = none := by decide +kernel

theorem witness_EveryResetGivesTheResetState :
    { active.pwc with held := true }.held = true ∧ active.pwc.held = false ∧
      Instr.restartReset ∉
        [Instr.powerOn, .resetLineAssert, .resetLineRelease, .serviceLineFall, .serviceLineRise] := by decide

theorem witness_TheStoreLoadMakesThePartActive :
    State.reset.pwc.held = false ∧ State.reset.pwc.power = .start ∧ State.reset.clc.census = none ∧
      State.reset.svc.state ≠ .capturing := by decide +kernel

theorem witness_TheEndOfAStoreWrite :
    (let s := { active with stc := { active.stc with writing := some .config } }
     s.pwc.held = false ∧ s.stc.writing = some .config ∧ s.pwc.standbyEntry = false ∧ s.stc.queue = [] ∧
        s.svc.write = none) ∧
    (let s := { active with stc := { active.stc with writing := some .config, queue := [.rules] } }
     s.stc.queue = .rules :: [] ∧ s.pwc.standbyEntry = false) ∧
    (writing.pwc.standbyEntry = false ∧ writing.stc.writing = some .loadsA ∧
      writing.svc.write.any fun w => w.block = .loadsA && w.begun) ∧
    (entering.stc.writing = some .loadsB ∧ entering.pwc.standbyEntry = true ∧ .loadsA ∉ entering.stc.queue ∧
      .loadsB ∉ entering.stc.queue) ∧
    (let s := { entering with stc := { entering.stc with writing := some .loadsA, queue := [.loadsB] } }
     s.pwc.held = false ∧ s.stc.writing = some .loadsA ∧ s.pwc.standbyEntry = true ∧ s.stc.queue = .loadsB :: [] ∧
      .loadsB ∈ s.stc.queue) := by
  decide +kernel

theorem witness_TheAgingSweep :
    let s := { active with pwc := { active.pwc with agingSince := some 0 } }
    let t := oneUnit .opened s
    s.pwc.held = false ∧ s.pwc.agingSince = some 0 ∧ s.ldt.signatureTrack = none ∧ t.ldt.signatureTrack ≠ none ∧
      entryAt t.ldt 0 = some (entryA .opened) ∧ (entryA .opened).inComposition = true ∧
      (setEntry 3 (some { entryA .opened with inComposition := false, age := 3 }) s.ldt).signatureTrack = none ∧
      entryAt (setEntry 3 (some { entryA .opened with inComposition := false, age := 3 }) s.ldt) 3 =
        some { entryA .opened with inComposition := false, age := 3 } ∧
      (let u := { t with ldt := setEntry 3 (some { entryA .opened with inComposition := false, age := 3 }) t.ldt }
       u.ldt.signatureTrack ≠ none ∧
        entryAt u.ldt 3 = some { entryA .opened with inComposition := false, age := 3 }) := by decide +kernel

/-- A window of one sample is full at its first one, and one of two is not. -/
theorem witness_AScanTakesItsSamples :
    let s := sensing 0 (fun x => { x with phase := .offSettled }) active
    let t := sensing 0 (fun x => { x with phase := .onSettled, nextStart := some 0 }) active
    let u := sensing 0 (fun x => { x with phase := .onSettling, settleTimer := some 0 }) active
    active.pwc.held = false ∧ standby.pwc.power = .standby ∧ active.pwc.power ≠ .standby ∧
      ((s.sfe.circuits.get 0).settleTimer = none ∧ (s.sfe.circuits.get 0).phase = .offSettled) ∧
      ((t.sfe.circuits.get 0).phase = .onSettled ∧ (t.sfe.circuits.get 0).nextStart = some 0 ∧ 0 ≤ max t.now t.sfe.nextScan) ∧
      ((u.sfe.circuits.get 0).settleTimer = some 0 ∧ 0 ≤ max u.now u.sfe.nextScan) := by decide +kernel

theorem witness_WindowsAndSettlingComplete :
    let s := { active with sfe := { active.sfe with supplyDone := some ({ len := 8, sum := 127960, count := 8 }, 2000) } }
    let z := sensing 7 (fun x => { x with phase := .offSettled, done := some (windowOf 501 24000, 2000) }) active
    let e := sensing 0 (fun x => { x with phase := .offSettling, settleTimer := some 40000 }) active
    s.pwc.held = false ∧ s.pwc.power ≠ .standby ∧ s.sfe.supplyDone ≠ none ∧
      ((z.sfe.circuits.get 7).phase = .offSettled ∧ (z.sfe.circuits.get 7).done = some (windowOf 501 24000, 2000)) ∧
      (e.pwc.power = .active ∧ (e.sfe.circuits.get 0).settleTimer = some 40000 ∧
        (e.sfe.circuits.get 0).phase = .offSettling) := by decide +kernel

/-- Held and not: 15999 mV is out of the voltage window and 16000 mV is in it. -/
theorem witness_AJudgementInstantJudgesItsOffer :
    let at' := fun v => sensing 0 (fun x =>
      { x with phase := .onSettled, done := some (windowOf 1872 v, 16000), settleEnd := some 0 }) active
    ∀ v ∈ [15999, 16000, 32000, 32001],
      (at' v).pwc.held = false ∧ ((at' v).sfe.circuits.get 0).phase = .onSettled ∧
        ((at' v).sfe.circuits.get 0).done = some (windowOf 1872 v, 16000) ∧ (at' v).clc.census = none ∧
        (chooseAction (at' v).jge.rules (at' v).hlc.word 0).1 = .judge := by decide +kernel

theorem witness_AStandbyScanJudgesTheParkedCircuits :
    let s := sensing 3 (fun x => { x with phase := .parkedOn, settleEnd := some 0 }) standby
    s.pwc.held = false ∧ s.pwc.power = .standby ∧ (s.sfe.circuits.get 3).phase = .parkedOn ∧
      (s.sfe.circuits.get 0).phase ≠ .parkedOn := by decide +kernel

theorem witness_CadenceExpiryGivesItsOutcome :
    let armed : Watch := { armed := some { period := 800, expires := 800000 }, load := 800 }
    let s := { active with jge := { active.jge with watches := (active.jge.watches.set 0 armed) } }
    s.pwc.held = false ∧ (s.jge.watches.get 0).armed = some { period := 800, expires := 800000 } ∧
      s.clc.census = none ∧ s.sfe.voltage = false ∧ holdMatches s.jge.rules s.hlc.word 0 = false ∧
      holdMatches s.jge.rules 0x8000 0 = true := by decide +kernel

theorem witness_ThePartSendsItsFrames :
    let roll := census .idle (some .roll) emptyCensus
    let assign := census .idle (some (.assign (assignA false))) emptyCensus
    let visit := { visiting (slotA .present 0) active with clc :=
      { (visiting (slotA .present 0) active).clc with
        visit := none, line := .idle, cycle := some { pos := 0, start := 0, ended := none, closing := false } } }
    (roll.clc.census = some emptyCensus ∧ roll.clc.line = .idle ∧ roll.clc.task = some .roll) ∧
      assign.clc.task = some (.assign (assignA false)) ∧
      (visit.clc.census = none ∧ visit.clc.visit = none ∧ visit.clc.line = .idle ∧ visit.pwc.power ≠ .start ∧
        visit.clc.cycle = some { pos := 0, start := 0, ended := none, closing := false } ∧
        visit.clc.table[0]? = some (slotA .present 0)) ∧
      (let s := { active with clc := { active.clc with
          visit := some { slot := 1, limit := 40000, repolls := 0, repollDue := some 3000 } } }
       s.clc.visit.bind (·.repollDue) = some 3000 ∧ s.clc.line = .idle) ∧
      (census (.sending .roll 2604) none emptyCensus).clc.line = .sending .roll 2604 := by decide +kernel

/-- Lamp positions of 4 are valid and one of 5 is not; the same identity twice, and a seventh node. -/
theorem witness_ARollIsAnsweredOrSilent :
    let payload : List Byte := List.replicate 6 0 ++ List.replicate 4 0x44
    let bad : ChainFrame := chainFrame 0 2 (List.replicate 6 0 ++ [0x05, 0, 0, 0])
    (census (.window .roll 10000) none emptyCensus).clc.line = .window .roll 10000 ∧ payload.length = 10 ∧
      (∀ c : Circuit, (lampsAt payload 6).get c ≤ 4) ∧ emptyCensus.silent = 0 ∧
      (∃ c : Circuit, 4 < (lampsAt bad.payload 6).get c) := by decide +kernel

theorem witness_AnAssignIsEchoedOrRepeated :
    let s := census (.window (.assign (assignA false)) 10000) none { emptyCensus with answered := 11 }
    s.pwc.held = false ∧ s.clc.line = .window (.assign (assignA false)) 10000 ∧ (assignA false).repeated = false ∧
      (List.replicate 8 (0 : Byte)).length = 8 ∧
      List.replicate 8 (0 : Byte) ≠ assignPayload (assignA false) s.clc.censusNumber ∧
      chainFrame 0 4 (List.replicate 8 0) ≠ chainFrame 0 4 (assignPayload (assignA false) s.clc.censusNumber) ∧
      { emptyCensus with answered := 12 }.answered = 12 := by decide +kernel

theorem witness_ACensusCompletes :
    let silent := { emptyCensus with silent := 1 }
    let full := { emptyCensus with answered := 12 }
    let bad := chainFrame 0 7 []
    (census (.window .roll 10000) none silent).clc.census = some silent ∧ 1 ≤ silent.silent ∧ bad.ty ≠ 2 ∧
      (census (.window (.assign (assignA true)) 10000) none emptyCensus).clc.line =
        .window (.assign (assignA true)) 10000 ∧ (assignA true).repeated = true ∧
      bad ≠ chainFrame 0 4 (assignPayload (assignA true) 2) ∧
      ((census (.window (.assign (assignA false)) 10000) none full).clc.census = some full ∧ 12 ≤ full.answered ∧
        (assignA false).choice = .slot) ∧
      (∀ k ∈ [DisplayState.new, .resolved], ({ entryOne k with subject := some .remainder }).subject = some .remainder ∧
        ({ entryOne k with subject := some (.slot 1), identity := some unitA }).identity = some unitA) ∧
      unitA ∈ [unitA] := by decide +kernel

theorem witness_AVisitIsAnswered :
    let payload : List Byte := [0x0A, 0x41, 0xC3, 0xF2, 0x0B, 0x77] ++ List.replicate 25 0
    ∀ x ∈ [slotA .present 0, slotA .stale 7, slotA .lost 255], ∀ p ∈ [active, standby],
      (visiting x p).pwc.held = false ∧ (visiting x p).clc.visit ≠ none ∧ slotOf (visiting x p) 1 = some x ∧
        (visiting x p).clc.cycle ≠ none ∧ (visiting x p).clc.line = .window .poll 10000 ∧ payload.length = 31 ∧
        (reportOf payload).identity = x.identity ∧
        (reportOf (List.replicate 31 0)).identity ≠ x.identity := by decide +kernel

/-- Misses 2 and 7 are the boundaries. -/
theorem witness_AFailedVisitIsAMiss :
    ∀ x ∈ [slotA .present 1, slotA .present 2, slotA .stale 6, slotA .stale 7, slotA .lost 255],
      ∀ p ∈ [active, standby, { active with clc := { active.clc with holdoff := some holdoffTime } }],
        (visiting x p).pwc.held = false ∧ slotOf (visiting x p) 1 = some x ∧
          (visiting x p).clc.line = .window .poll 10000 ∧ (visiting x p).clc.census = none ∧
          (chainFrame 1 6 []).len ≠ 31 ∧ (chainFrame 2 7 []).addr.toNat ≠ 1 ∧
          (2 ≤ { slot := 1, limit := 40000, repolls := 2, repollDue := none : Visit }.repolls) ∧
          (∀ l ∈ [Line.idle, .sending .poll 39999],
            (let s := { visiting x p with clc := { (visiting x p).clc with line := l } }
             s.clc.visit.isSome = true ∧ s.clc.line = l ∧ slotOf s 1 = some x ∧ s.clc.census = none)) := by decide +kernel

theorem witness_CyclesHoldOffAndStrayFrames :
    let s := { active with clc := { active.clc with
      cycle := some { pos := 0, start := 0, ended := none, closing := false }
      holdoff := some holdoffTime, pendingTrigger := true } }
    s.pwc.held = false ∧ s.clc.census = none ∧ s.clc.visit = none ∧ s.clc.table = [] ∧
      s.clc.cycle = some { pos := 0, start := 0, ended := none, closing := false } ∧
      standby.pwc.power = .standby ∧ s.clc.holdoff = some holdoffTime ∧ s.clc.pendingTrigger = true ∧
      s.pwc.power = .active := by decide +kernel

theorem witness_TheTimersOfTheDisplay :
    let s := { listing .resolved active with
      dsr := { (listing .resolved active).dsr with reconcile := some 2000000, mirror := .pending } }
    s.pwc.held = false ∧
      s.dsr.list.find? (fun e => e.id = 1 ∧ e.state = .resolved) = some (entryOne .resolved) ∧
      (entryOne .resolved).linger = some (.running 60000000) ∧ s.dsr.reconcile = some 2000000 := by decide +kernel

theorem witness_ServiceTimersAndTheServiceLine :
    ((capturing false).pwc.held = false ∧ (capturing false).svc.state = .capturing ∧
      (capturing false).svc.capture = some (captureA false) ∧
      (capturing false).svc.captureTimer = some captureTime ∧ (capturing false).svc.line = true ∧
      (capturing false).svc.mode = true) ∧
    (releasing.svc.state = .releasePending ∧ releasing.svc.release.isSome = true) ∧ active.svc.mode = false ∧
    (inService.svc.state = .idle ∧ inService.svc.line = true ∧ inService.svc.mode = true) ∧
    (writing.svc.state = .writing ∧ writing.svc.line = true ∧ writing.svc.mode = true) := by decide +kernel

/-- The bounds of each clause at their ends: offers below and above the zero reference, baselines of 1, 20000 and 0 mA of
both classes at 16 and 32 V, and the greatest parameters with F 1 and 8. -/
theorem witness_CurrentsBaselinesAndThresholds :
    (∀ o ∈ [{ workedOffer with mean := 30000, zero := 500 }, { workedOffer with mean := 500, zero := 500 }],
      o.mean ≤ 30000 ∧ o.zero ≤ 500) ∧
      ({ workedOffer with mean := 30000, zero := 500 } : Offer).zero < 30000 ∧
      (∀ b ∈ [({ state := .known, cls := .filament, nominal := 1, vref := 32000 } : Baseline),
          { state := .known, cls := .filament, nominal := 20000, vref := 16000 }],
        b.cls = .filament ∧ 1 ≤ b.nominal ∧ b.nominal ≤ 20000 ∧ 16000 ≤ b.vref ∧ b.vref ≤ 32000) ∧
      30000 < (2 * (20000 * 32000) + 16000) / (2 * 16000) ∧ LampClass.regulated ≠ .filament ∧
      Baseline.unknown.state ≠ .known ∧
      (∀ f ∈ [1, 8], ∀ l ∈ [({ factor := f, tAbs := 1000, tPm := 500, tOver := 1000 } : Levels)],
        l.factor ≤ 8 ∧ 10 ≤ l.tAbs ∧ l.tAbs ≤ 1000 ∧ l.tPm = 500 ∧ l.tOver = 1000) ∧
      30000 < ({ factor := 8, tAbs := 1000, tPm := 500, tOver := 1000 } : Levels).deficit 30000 := by decide +kernel

/-- The default rules are 32; rule 31 is its own head, and rule 0 is of action HOLD and rule 4 of action WIDEN. -/
theorem witness_ARuleMatchesItsItems :
    defaultRules.length = 32 ∧ (defaultRules[31]?).map (·.head) = some 31 ∧
      setMatches defaultRules 0x8000 0 7 = true ∧ (defaultRules[0]?).map (·.action) = some .hold ∧
      (setMatches defaultRules 0x1000 4 3 = true ∧ (defaultRules[4]?).map (·.action) = some .widen ∧
        setMatches defaultRules 0x1000 0 3 = false) ∧
      roleOf (defaultRules.set 5 { Rule.blank 5 with head := 0 }) 5 = .orphan ∧
      roleOf ((defaultRules.set 5 { Rule.blank 5 with head := 0 }).set 0 { Rule.blank 0 with members := 0x20 }) 5 =
        .member 0 := by decide +kernel

theorem witness_AReportedSlotIsJudgedOnItsReport :
    (workedSlot2.track.any fun t => t.base.state = .known) ∧ ({ workedSlot2 with track := none }).track = none ∧
      (∀ k ∈ [Lock.commissioned, .opened],
        ({ index := 0, lock := k, base := Baseline.unknown } : Tracked).base.state ≠ .known) := by decide +kernel

theorem witness_ThePoolIsJudgedByItsResidual :
    poolKind defaultLevels 40 126 = some .unitLost ∧ 0 < defaultLevels.zero ∧
      ((measured workedOffer : Int) - 1023 = 837 ∧ -(defaultLevels.zero : Int) ≤ 837) ∧
      (some (knownAs .filament 875 27600)).any (fun t => t.base.state = .known) = true ∧
      (none : Option Tracked).all (fun t => t.base.state != .known) = true := by decide +kernel

/-- N_c 1 and 3, N_h 1 and 5, at the count before each bound and at it. -/
theorem witness_AnOutcomeMeetsItsRecord :
    findRecord Flt.initial (.cadence 0) = none ∧ emptyPosition Flt.initial = some 0 ∧
      emptyPosition { Flt.initial with records := List.replicate 32 (some (recordA .active 3 0)) } = none ∧
      (∀ r ∈ [recordA .suspect 1 0, recordA .suspect 2 0, recordA .active 3 0, recordA .healing 3 3,
          recordA .healing 3 4],
        findRecord (holding r) (.cadence 0) = some 0 ∧ recordAt (holding r) 0 = some r) ∧
      1 < Params.default.confirm ∧ 1 < Params.default.heal ∧
      (recordA .suspect 2 0).suspect + 1 = Params.default.confirm ∧
      (recordA .healing 3 4).heal + 1 = Params.default.heal ∧
      (([some (recordA .active 3 0)].filterMap id).find? fun r => r.entryId = some (entryOne .new).id) =
        some (recordA .active 3 0) ∧
      ((recordA .active 3 0).entryId = some (entryOne .new).id ∧ (entryOne .new).state = .new) := by decide +kernel

theorem witness_ALearningValueJoinsItsRun :
    1 ≤ Params.default.learnCount ∧ (entryA .commissioned).lock = .commissioned ∧ (entryA .opened).lock = .opened ∧
      ((entryA .opened).cells.get 0).base.state ≠ .known ∧
      (slotUsable 0 { workedSlot1 with state := .stale } = false ∧ slotUsable 0 workedSlot1 = true) ∧
      [workedSlot1].find? (fun v => v.slot = 1) = some workedSlot1 ∧
      (let s := oneUnit .opened active
       servingIndex s.ldt (.slot 1) = some 0 ∧ entryAt s.ldt 0 = some (entryA .opened) ∧
        servingIndex s.ldt .remainder = some 24 ∧ entryAt s.ldt 24 = some (freshEntry (.remainder [])) ∧
        servingIndex s.ldt (.slot 2) = none) ∧
      ((captureA false).records.all fun k => k.circuit = 0 && k.captured.isNone) = true ∧
      (active.clc.table = [] ∧ (oneUnit .opened active).clc.table[0]? = some (slotA .present 0)) := by decide +kernel

/-- A record with an entry id and without, a RESOLVED entry, an id counter at its ends, and a list that changes. -/
theorem witness_CandidatesStandInOneOrder :
    (holding (recordA .active 3 0)).records.length = 32 ∧ 1 ≤ Dsr.initial.idCounter ∧
      (rankedCandidates Params.default (holding (recordA .active 3 0)).records [entryOne .resolved]).map
        (fun k => (k.resolved, k.index)) = [(false, 0), (true, 1)] ∧
      (let fresh := { recordA .active 3 0 with entryId := none }
       let f := { holding fresh with records := (holding fresh).records.set 5 (some { fresh with sequence := some 2 }) }
       (rankedCandidates Params.default f.records [entryOne .resolved]).map (fun k => (k.resolved, k.index)) =
          [(false, 0), (false, 5), (true, 1)] ∧
        (rebuildList Params.default f { Dsr.initial with list := [entryOne .resolved], idCounter := 255 }).2.list.map
          (fun e => e.id) = [255, 2, 1]) ∧
      freeId [255, 1] 255 255 = 2 ∧ ([255, 1] : List Nat).length < 255 ∧
      (let s := { active with flt := holding { recordA .active 3 0 with entryId := none } }
       s.pwc.power = .active ∧ listView (rebuildList s.params s.flt s.dsr).2 ≠ listView s.dsr ∧
        (rebuildList s.params s.flt s.dsr).2.idCounter = 2) ∧
      (telltales [entryOne .new]).left = .flash ∧ (telltales [entryOne .acked]).left = .steady ∧
      (telltales [entryOne .resolved]).left = .off := by decide +kernel

end Sys2Proof.Tests
end

/-! ### WRITE-RULE (R71 to R73, R77) -/

section
namespace Sys2Proof.Machine

/-! #### The body of a WRITE-RULE -/

theorem senseOf_eq_none_iff (n : Nat) : senseOf n = none ↔ 1 < n := by
  rcases n with _ | _ | n <;> simp [senseOf]

theorem actionOf_eq_none_iff (n : Nat) : actionOf n = none ↔ 3 < n := by
  rcases n with _ | _ | _ | _ | n <;> simp [actionOf]

/-- The RANGE test of a WRITE-RULE body (R71). -/
theorem ruleOf_eq_none_iff (body : List Byte) :
    ruleOf body = none ↔ 31 < (byteAt body 0).toNat ∨ 31 < (byteAt body 8).toNat ∨
      1 < (byteAt body 2).toNat ∨ 3 < (byteAt body 13).toNat := by
  rw [← senseOf_eq_none_iff, ← actionOf_eq_none_iff]
  unfold ruleOf
  simp only
  split
  · next hr => rcases hr with hn | hh <;> simp [*]
  · next hr =>
    obtain ⟨hn, hh⟩ := not_or.1 hr
    cases senseOf (byteAt body 2).toNat <;> cases actionOf (byteAt body 13).toNat <;> simp [hn, hh]

/-- The rule a body names is the one of its first byte. -/
theorem ruleOf_number {body : List Byte} {n : Nat} {r : Rule} (h : ruleOf body = some (n, r)) :
    n = (byteAt body 0).toNat := by
  unfold ruleOf at h
  simp only at h
  split at h
  · cases h
  · split at h <;> cases h
    rfl

/-! #### The adjustments (R72) -/

theorem clamp_eq_max_min {lo hi : Nat} (h : lo ≤ hi) (n : Nat) : clamp lo hi n = max lo (min hi n) := by
  unfold clamp
  split
  · omega
  · split <;> omega

theorem roundTen_eq (n : Nat) : roundTen n = (n + 5) / 10 * 10 := by
  unfold roundTen roundHalfUp
  omega

theorem storedParam_widen (n : Nat) : storedParam .widen n = max 2 (min 8 n) :=
  clamp_eq_max_min (by decide) n

theorem storedParam_cadence (n : Nat) :
    storedParam .cadence n = (max 200 (min 5000 n) + 5) / 10 * 10 := by
  rw [storedParam, roundTen_eq, clamp_eq_max_min (by decide)]

theorem storedParam_unused {a : Action} (h : a = .judge ∨ a = .hold) (n : Nat) : storedParam a n = 0 := by
  rcases h with rfl | rfl <;> rfl

/-! #### The watches after the write (R77) -/

/-- A watch's evaluation reads the rules, the word, the fast-flash requests and the clock. -/
theorem evaluateWatch_of_same {s t : State} (hr : t.jge.rules = s.jge.rules) (hw : t.hlc.word = s.hlc.word)
    (hf : t.flt = s.flt) (hn : t.now = s.now) : evaluateWatch t = evaluateWatch s := by
  funext c x
  unfold evaluateWatch loadWatch
  rw [hr, hw, hf, hn]

/-- Neither the reply nor the restarted silence timer bears on a watch: the new table does. -/
theorem evaluateWatch_setRule (n : Nat) (q : Rule) (x : TxRecord) (s : State) :
    evaluateWatch (setRule n q (send x (restartSilence s))) =
      evaluateWatch { s with jge := { s.jge with rules := s.jge.rules.set n q } } :=
  evaluateWatch_of_same rfl (by simp) rfl rfl

theorem evaluateAfterWrite_eq (s : State) :
    evaluateAfterWrite s =
      { s with jge := { s.jge with watches := (evaluateAfterWrite s).jge.watches } } := by
  unfold evaluateAfterWrite
  split <;> rfl

theorem evaluateAfterWrite_fresh {s : State} (h : s.hlc.stale = false) :
    (evaluateAfterWrite s).jge.watches = s.jge.watches.mapAt (evaluateWatch s) := by
  simp [evaluateAfterWrite, h, evaluateWatches, setWatches]

/-! #### The owner's work -/

theorem answerWriteRule_none {body : List Byte} (h : ruleOf body = none) (s : State) :
    answerWriteRule body s = send (.refused 0x0A .range) s := by
  simp [answerWriteRule, h, refuse]

theorem answerWriteRule_some {body : List Byte} {n : Nat} {r : Rule} (h : ruleOf body = some (n, r)) (s : State) :
    answerWriteRule body s =
      evaluateAfterWrite (setRule n (adjustRule r) (send (.writeRule n (adjustRule r) (adjustRule r != r)) s)) := by
  simp [answerWriteRule, h]

theorem answerWriteRule_buffer (body : List Byte) (s : State) :
    (answerWriteRule body s).hlc.buffer = s.hlc.buffer := by
  cases h : ruleOf body with
  | none => simp [answerWriteRule_none h]
  | some x => rw [answerWriteRule_some h, evaluateAfterWrite_eq]; simp

/-- In a listening part outside a service operation a whole WRITE-RULE meets its owner (R154, R168). -/
theorem exec_writeRule_listening {body : List Byte} {s : State} (h : Listening s) (hi : s.svc.state = .idle)
    (hl : body.length = 16) :
    exec (.writeRule body) s = .next (finish (answerWriteRule body (restartSilence s))) := by
  have hlen : lengthGood { kind := 0x0A, body := body } = true := by simp [lengthGood, bodyLength, hl]
  have hpass : serviceVerdict 0x0A s.svc.mode s.svc.state = .pass := by rw [hi]; rfl
  have hbuf : (answerWriteRule body (restartSilence s)).hlc.buffer = none := by
    obtain ⟨-, -, -, -, ⟨-, hb, -⟩, -, -, -⟩ := h
    rw [answerWriteRule_buffer]
    exact hb
  exact congrArg _ (hostRecord_listening { kind := 0x0A, body := body } _ s h rfl hlen hpass hbuf)

/-- A request that replies and writes the Judgement Engine leaves nothing to report. -/
theorem finish_send_jge (r : TxRecord) (j : Jge) (s : State) (h : Listening s) :
    finish { send r (restartSilence s) with jge := j } = { answered [r] s with jge := j } := by
  obtain ⟨-, -, -, -, -, -, hc, hln⟩ := h
  rw [finish_still]
  · rfl
  · simpa using hc
  · exact LinesLaw_of_same hln rfl rfl rfl rfl (by simp)

theorem exec_writeRule_refused {body : List Byte} {s : State} (h : Listening s) (hi : s.svc.state = .idle)
    (hl : body.length = 16) (hr : ruleOf body = none) :
    exec (.writeRule body) s = .next (answered [.refused 0x0A .range] s) := by
  rw [exec_writeRule_listening h hi hl, answerWriteRule_none hr, finish_send _ s h]

/-- An accepted WRITE-RULE replies, replaces the rule as adjusted, and writes nothing else but the watches (R72, R73),
each of which is evaluated against the new table while the word is fresh (R77). -/
theorem exec_writeRule_accepted {body : List Byte} {n : Nat} {r : Rule} {s : State} (h : Listening s)
    (hi : s.svc.state = .idle) (hl : body.length = 16) (hr : ruleOf body = some (n, r)) :
    ∃ t, exec (.writeRule body) s = .next t ∧
      t = { answered [.writeRule n (adjustRule r) (adjustRule r != r)] s with
        jge := { s.jge with rules := s.jge.rules.set n (adjustRule r), watches := t.jge.watches } } ∧
      (s.hlc.stale = false →
        t.jge.watches = s.jge.watches.mapAt
          (evaluateWatch { s with jge := { s.jge with rules := s.jge.rules.set n (adjustRule r) } })) := by
  refine ⟨_, exec_writeRule_listening h hi hl, ?_, fun hs => ?_⟩
  · rw [finish_jge, answerWriteRule_some hr, evaluateAfterWrite_eq]
    exact finish_send_jge _ _ s h
  · rw [finish_jge, answerWriteRule_some hr, evaluateAfterWrite_fresh (by simpa using hs), evaluateWatch_setRule]
    rfl

/-- Settles O22: the RANGE test is where `ruleOf` gives no rule, and an accepted rule is stored as `adjustRule` leaves
it. -/
theorem writeRuleStoresTheAdjustedRule : Obligations.WriteRuleStoresTheAdjustedRule := by
  intro body s h hi hl
  refine ⟨fun hbad => exec_writeRule_refused h hi hl ((ruleOf_eq_none_iff body).2 hbad), fun h0 h8 h2 h13 => ?_⟩
  have hsome : ruleOf body ≠ none := by
    rw [ne_eq, ruleOf_eq_none_iff]
    omega
  obtain ⟨⟨n, r⟩, hr⟩ := Option.ne_none_iff_exists'.1 hsome
  refine ⟨n, r, adjustRule r, hr, ruleOf_number hr, rfl, fun ha => ?_, fun ha => ?_, fun ha => ?_,
    exec_writeRule_accepted h hi hl hr⟩
  · simp only [adjustRule, ha, storedParam_widen]
  · simp only [adjustRule, ha, storedParam_cadence]
  · exact storedParam_unused ha r.param

end Sys2Proof.Machine
end

/-! ### Measured current, baselines and thresholds (R86 to R88) -/

section
namespace Sys2Proof.Machine

/-! #### The two roundings -/

/-- A rounded quotient reaches `k` exactly when the numerator reaches `k - 1/2` denominators. -/
theorem le_roundHalfUp_iff {k n d : Nat} (hd : 0 < d) : k ≤ roundHalfUp n d ↔ k * (2 * d) ≤ 2 * n + d :=
  Nat.le_div_iff_mul_le (by omega)

theorem roundHalfUp_zero {d : Nat} (hd : 0 < d) : roundHalfUp 0 d = 0 :=
  Nat.div_eq_of_lt (by omega)

theorem ceilPerMille_zero (t : Nat) : ceilPerMille 0 t = 0 := by
  simp [ceilPerMille]

/-- The share of a current within the sample range is at most that of 30000 mA. -/
theorem ceilPerMille_le {e t m : Nat} (he : e ≤ 30000) (ht : t ≤ m) : ceilPerMille e t ≤ 30 * m := by
  have hprod : e * t ≤ 30000 * m := Nat.mul_le_mul he ht
  unfold ceilPerMille
  omega

/-! #### The measured current (R86) -/

/-- The two lines of R86 are one truncated difference. -/
theorem measured_eq_sub (o : Offer) : measured o = o.mean - o.zero := by
  unfold measured
  split <;> omega

/-! #### The adjusted baseline (R87) -/

theorem adjusted_regulated {b : Baseline} (h : b.cls = .regulated) (v : Nat) :
    adjusted v b = min b.nominal currentMax := by
  simp only [adjusted, h]

theorem adjusted_filament {b : Baseline} (h : b.cls = .filament) (v : Nat) :
    adjusted v b = min (roundHalfUp (b.nominal * v) b.vref) currentMax := by
  simp only [adjusted, h]

theorem adjusted_of_nominal_zero {b : Baseline} (h : b.nominal = 0) (hr : 0 < b.vref) (v : Nat) :
    adjusted v b = 0 := by
  cases hc : b.cls with
  | regulated => simp [adjusted_regulated hc, h]
  | filament => simp [adjusted_filament hc, h, roundHalfUp_zero hr]

/-- Inside the voltage window the supply is at least half the reference, so a baseline does not round to nothing. -/
theorem one_le_adjusted {v : Nat} {b : Baseline} (hn : 1 ≤ b.nominal) (hv : 16000 ≤ v) (hr : 16000 ≤ b.vref)
    (hr' : b.vref ≤ 32000) : 1 ≤ adjusted v b := by
  cases hc : b.cls with
  | regulated =>
    rw [adjusted_regulated hc]
    exact le_min hn (by decide)
  | filament =>
    have hprod : 1 * 16000 ≤ b.nominal * v := Nat.mul_le_mul hn hv
    rw [adjusted_filament hc]
    exact le_min ((le_roundHalfUp_iff (by omega)).2 (by omega)) (by decide)

/-- Before the bound of R87 a FILAMENT baseline at most doubles. -/
theorem roundHalfUp_nominal_le {n v r : Nat} (hn : n ≤ 20000) (hv : v ≤ 32000) (hr : 16000 ≤ r) :
    roundHalfUp (n * v) r ≤ 40000 := by
  have hprod : n * v ≤ 20000 * 32000 := Nat.mul_le_mul hn hv
  by_contra hover
  have := (le_roundHalfUp_iff (k := 40001) (by omega)).1 (not_le.1 hover)
  omega

/-- The bound of R87 is met only by a great nominal current and a supply above its reference. -/
theorem lt_of_currentMax_lt_roundHalfUp {n v r : Nat} (hn : n ≤ 20000) (hv : v ≤ 32000) (hr : 16000 ≤ r)
    (h : currentMax < roundHalfUp (n * v) r) : 15000 < n ∧ r < v := by
  have hnum : 30001 * (2 * r) ≤ 2 * (n * v) + r := (le_roundHalfUp_iff (by omega)).1 h
  constructor
  · by_contra hsmall
    have hprod : n * v ≤ 15000 * 32000 := Nat.mul_le_mul (not_lt.1 hsmall) hv
    omega
  · by_contra hlow
    have hprod : n * v ≤ 20000 * r := Nat.mul_le_mul hn (not_lt.1 hlow)
    omega

theorem knownBase_of_not_known {t : Tracked} (h : t.base.state ≠ .known) : knownBase (some t) = none := by
  simp [knownBase, h]

/-! #### The levels (R88) -/

namespace Levels

theorem deficit_zero (l : Levels) : l.deficit 0 = l.zero := by
  simp [deficit, zero, ceilPerMille_zero]

theorem excess_zero (l : Levels) : l.excess 0 = l.zero := by
  simp [excess, zero, ceilPerMille_zero]

theorem zero_le_deficit (l : Levels) (e : Nat) : l.zero ≤ l.deficit e :=
  Nat.mul_le_mul_left _ (le_max_left _ _)

theorem zero_le_excess (l : Levels) (e : Nat) : l.zero ≤ l.excess e :=
  Nat.mul_le_mul_left _ (le_max_left _ _)

theorem deficit_le {l : Levels} {e : Nat} (ha : l.tAbs ≤ 1000) (ht : l.tPm ≤ 500) (he : e ≤ 30000) :
    l.deficit e ≤ l.factor * 15000 :=
  Nat.mul_le_mul_left _ (max_le (by omega) (ceilPerMille_le he ht))

theorem excess_le {l : Levels} {e : Nat} (ha : l.tAbs ≤ 1000) (ht : l.tOver ≤ 1000) (he : e ≤ 30000) :
    l.excess e ≤ l.factor * 30000 :=
  Nat.mul_le_mul_left _ (max_le (by omega) (ceilPerMille_le he ht))

/-- The bound of `deficit_le` is taken at the greatest expectation and per-mille threshold. -/
theorem deficit_greatest {l : Levels} (ha : l.tAbs ≤ 1000) (ht : l.tPm = 500) :
    l.deficit 30000 = l.factor * 15000 := by
  have hceil : ceilPerMille 30000 500 = 15000 := rfl
  rw [deficit, ht, hceil, max_eq_right (by omega)]

/-- The bound of `excess_le` is taken at the greatest expectation and per-mille threshold. -/
theorem excess_greatest {l : Levels} (ha : l.tAbs ≤ 1000) (ht : l.tOver = 1000) :
    l.excess 30000 = l.factor * 30000 := by
  have hceil : ceilPerMille 30000 1000 = 30000 := rfl
  rw [excess, ht, hceil, max_eq_right (by omega)]

end Levels

/-- Settles O54: R86 as one truncated difference, R87 by the lamp class, R88 by the bounds of the per-mille share. -/
theorem currentsBaselinesAndThresholds : Obligations.CurrentsBaselinesAndThresholds := by
  refine ⟨fun o => ?_, fun v b => ?_, fun l e => ?_⟩
  · have hmeasured := measured_eq_sub o
    refine ⟨fun _ => hmeasured, ?_, ?_, ?_, fun _ => rfl⟩ <;> omega
  · exact ⟨fun h => adjusted_regulated h v, fun h => adjusted_filament h v,
      fun hn hr => adjusted_of_nominal_zero hn hr v,
      fun hn hv _ hr hr' => one_le_adjusted hn hv hr hr',
      fun hn _ hv hr _ _ => ⟨roundHalfUp_nominal_le hn hv hr, lt_of_currentMax_lt_roundHalfUp hn hv hr⟩,
      fun _ => knownBase_of_not_known⟩
  · refine ⟨rfl, rfl, rfl, l.deficit_zero, l.excess_zero, fun hf hlow ha ht ho he => ?_,
      fun hf ha ht ho he => ?_, fun hf ha => ⟨fun ht => ?_, fun ho => ?_⟩, fun m he hm => ⟨?_, ?_⟩⟩
    · have hzero : l.zero = l.tAbs := by rw [Levels.zero, hf, one_mul]
      have hd := Levels.deficit_le ha ht he
      have hx := Levels.excess_le ha ho he
      have hzd := l.zero_le_deficit e
      have hzx := l.zero_le_excess e
      omega
    · have hd := Levels.deficit_le ha ht he
      have hx := Levels.excess_le ha ho he
      omega
    · rw [Levels.deficit_greatest ha ht, hf]
    · rw [Levels.excess_greatest ha ho, hf]
    · omega
    · omega

end Sys2Proof.Machine
end

/-! ### The outcome of a REPORTED slot (R91, R92) -/

section
namespace Sys2Proof.Machine

/-- R91's first line reads the energized flag. -/
theorem not_energizedFor_iff (c : Circuit) (r : Report) :
    (!energizedFor c r) = true ↔ r.energized.getLsbD c.val = false := by
  rw [energizedFor, Bool.not_eq_true']

theorem outageFor_iff (c : Circuit) (r : Report) : outageFor c r = true ↔ r.outage.get c ≠ 0 :=
  bne_iff_ne

/-- R91's lines over the integers, where a reported current may exceed its expectation. -/
theorem knownKind_eq (l : Levels) (c : Circuit) (r : Report) (e : Nat) :
    knownKind l c r e =
      if r.energized.getLsbD c.val = false then some .unitLost
      else if (r.current.get c : Int) ≤ l.zero ∧ 2 * (l.zero : Int) < e then some .unitLost
      else if (l.deficit e : Int) ≤ (e : Int) - r.current.get c ∨ r.outage.get c ≠ 0 then some .outage
      else if (l.excess e : Int) ≤ (r.current.get c : Int) - e then some .overload
      else none := by
  have hzero : (r.current.get c ≤ l.zero ∧ 2 * l.zero < e) ↔
      ((r.current.get c : Int) ≤ l.zero ∧ 2 * (l.zero : Int) < e) := by omega
  simp only [knownKind, not_energizedFor_iff, outageFor_iff, hzero]

theorem aloneKind_eq (c : Circuit) (r : Report) :
    aloneKind c r =
      if r.energized.getLsbD c.val = false then some .unitLost
      else if r.outage.get c ≠ 0 then some .outage
      else none := by
  simp only [aloneKind, not_energizedFor_iff, outageFor_iff]

theorem nodeVerdict_known {v : SlotView} {t : Tracked} (h : v.track = some t) (hk : t.base.state = .known)
    (l : Levels) (c : Circuit) (volts : Nat) (r : Report) :
    nodeVerdict l c volts v r = some
      { key := .lamp (.slot v.slot) c, kind := knownKind l c r (adjusted volts t.base), identity := some v.identity
        expected := adjusted volts t.base, deficit := (adjusted volts t.base : Int) - r.current.get c } := by
  simp only [nodeVerdict, h, hk, if_true]

theorem nodeVerdict_alone {v : SlotView}
    (h : v.track = none ∨ ∃ t, v.track = some t ∧ t.base.state ≠ .known ∧ t.lock = .commissioned)
    (l : Levels) (c : Circuit) (volts : Nat) (r : Report) :
    nodeVerdict l c volts v r = some
      { key := .lamp (.slot v.slot) c, kind := aloneKind c r, identity := some v.identity, expected := 0
        deficit := 0 } := by
  rcases h with hn | ⟨t, ht, hk, hl⟩
  · simp only [nodeVerdict, hn]
  · simp only [nodeVerdict, ht, hl, if_neg hk, if_true]

theorem nodeVerdict_open {v : SlotView} {t : Tracked} (h : v.track = some t) (hk : t.base.state ≠ .known)
    (hl : t.lock = .opened) (l : Levels) (c : Circuit) (volts : Nat) (r : Report) :
    nodeVerdict l c volts v r = none := by
  simp only [nodeVerdict, h, hl, if_neg hk, reduceCtorEq, if_false]

/-- Settles O56, by the three ways a REPORTED slot is tracked. -/
theorem aReportedSlotIsJudgedOnItsReport : Obligations.AReportedSlotIsJudgedOnItsReport := by
  intro l c volts v r
  refine ⟨fun t ht hk => ⟨_, _, _, _, _, rfl, rfl, rfl, rfl, rfl, ?_⟩, fun h => ?_, fun t ht hk hl => ?_⟩
  · rw [nodeVerdict_known ht hk, knownKind_eq]
  · rw [nodeVerdict_alone h, aloneKind_eq]
  · exact nodeVerdict_open ht hk hl l c volts r

end Sys2Proof.Machine
end


/-! ### The laws a step keeps, as one preorder on states -/

section
/-!
PROOFS. What every step keeps (O5 to O8), said as relations between the state before and the state after that compose:
`KeepsTables` for the tables and `KeepsPower` for what the power state excludes.
-/
namespace Sys2Proof.Machine

/-- The sizes of the tables and of the list together (R44, R63, R104, R126, R181). -/
def Sized (s : State) : Prop := SizesLaw s ∧ ListLaw s

/-- From one state to a later one the tables keep their laws. The Fault Table's keys need the chain table's law, by which
a census moves no two units to one slot (R104, R116). -/
structure KeepsTables (s t : State) : Prop where
  sized : Sized s → Sized t
  chain : ChainLaw s → ChainLaw t
  keys : ChainLaw s → KeysLaw s.flt → KeysLaw t.flt
  flash : FlashLaw s.flt → FlashLaw t.flt

/-- No watch counts down. -/
def Unarmed (s : State) : Prop := ∀ c : Circuit, (s.jge.watches.get c).armed = none

/-- From one state to a later one the power state and the frames at hand stay, and what the power state excludes stays
excluded. -/
structure KeepsPower (s t : State) : Prop where
  power : t.pwc.power = s.pwc.power
  entry : t.pwc.standbyEntry = s.pwc.standbyEntry
  restart : t.pwc.restartPending = s.pwc.restartPending
  processing : t.hlc.processing = s.hlc.processing
  buffer : t.hlc.buffer = s.hlc.buffer
  mode : s.svc.mode = false → t.svc.mode = false
  reconcile : s.pwc.power ≠ .active → s.dsr.reconcile = none → t.dsr.reconcile = none
  unarmed : s.pwc.power ≠ .active → Unarmed s → Unarmed t

/-- Both together: the work of most commands. -/
structure Tame (s t : State) : Prop where
  tables : KeepsTables s t
  power : KeepsPower s t

/-- What one step keeps: the laws of O5 to O8. -/
structure Lawful (s t : State) : Prop where
  tables : KeepsTables s t
  power : PowerLaw s → PowerLaw t
  lines : LinesLaw s → LinesLaw t

/-! ### They compose -/

theorem KeepsTables.refl (s : State) : KeepsTables s s := ⟨id, id, fun _ => id, id⟩

theorem KeepsTables.trans {s t u : State} (h : KeepsTables s t) (k : KeepsTables t u) : KeepsTables s u :=
  ⟨k.sized ∘ h.sized, k.chain ∘ h.chain, fun hc hk => k.keys (h.chain hc) (h.keys hc hk), k.flash ∘ h.flash⟩

theorem KeepsPower.refl (s : State) : KeepsPower s s :=
  ⟨rfl, rfl, rfl, rfl, rfl, id, fun _ => id, fun _ => id⟩

theorem KeepsPower.trans {s t u : State} (h : KeepsPower s t) (k : KeepsPower t u) : KeepsPower s u where
  power := k.power.trans h.power
  entry := k.entry.trans h.entry
  restart := k.restart.trans h.restart
  processing := k.processing.trans h.processing
  buffer := k.buffer.trans h.buffer
  mode := k.mode ∘ h.mode
  reconcile hp := k.reconcile (h.power ▸ hp) ∘ h.reconcile hp
  unarmed hp := k.unarmed (h.power ▸ hp) ∘ h.unarmed hp

theorem Tame.refl (s : State) : Tame s s := ⟨.refl s, .refl s⟩

theorem Tame.trans {s t u : State} (h : Tame s t) (k : Tame t u) : Tame s u :=
  ⟨h.tables.trans k.tables, h.power.trans k.power⟩

/-- A work done one element after the other is tame when each part is. -/
theorem Tame.foldl {α : Type} {f : State → α → State} (h : ∀ s a, Tame s (f s a)) (l : List α) (s : State) :
    Tame s (l.foldl f s) := by
  induction l generalizing s with
  | nil => exact .refl s
  | cons a l ih => exact (h s a).trans (ih (f s a))

theorem Lawful.trans {s t u : State} (h : Lawful s t) (k : Lawful t u) : Lawful s u :=
  ⟨h.tables.trans k.tables, k.power ∘ h.power, k.lines ∘ h.lines⟩

/-- What the power state excludes stays excluded. -/
theorem KeepsPower.law {s t : State} (h : KeepsPower s t) (hl : PowerLaw s) : PowerLaw t := by
  obtain ⟨hentry, hparked, hrestart, houtside⟩ := hl
  have hwaking : waking t = waking s := by simp [waking, h.processing, h.buffer]
  refine ⟨?_, ?_, ?_, ?_⟩
  · rw [h.entry, h.power]; exact hentry
  · rw [h.entry, h.power, h.processing, h.buffer]
    exact fun hp => ⟨(hparked hp).1, (hparked hp).2.1, h.mode (hparked hp).2.2⟩
  · rw [h.restart, h.processing]; exact hrestart
  · rw [h.power, hwaking]
    intro hp
    obtain ⟨hm, hr, hu, hw⟩ := houtside hp
    exact ⟨h.mode hm, h.reconcile hp hr, h.unarmed hp hu, hw⟩

/-! ### What the laws look at -/

theorem ChainLaw.congr {s t : State} (h : t.clc = s.clc) (hl : ChainLaw s) : ChainLaw t := by
  unfold ChainLaw at *
  rw [h]
  exact hl

/-- The tables' laws look at the Load Table's places, the rules, the store, the list, the Fault Table and the chain
line. -/
theorem KeepsTables.of_same {s t : State} (hl : t.ldt.entries.length = s.ldt.entries.length)
    (hj : t.jge.rules = s.jge.rules) (hf : t.flt = s.flt) (hd : s.dsr.list.length ≤ 8 → t.dsr.list.length ≤ 8)
    (hs : t.stc = s.stc) (hc : t.clc = s.clc) : KeepsTables s t where
  sized := by
    rintro ⟨hz, hlist⟩
    refine ⟨?_, hd hlist⟩
    unfold SizesLaw at *
    rw [hl, hj, hf, hs]
    exact hz
  chain := ChainLaw.congr hc
  keys _ := by rw [hf]; exact id
  flash := by rw [hf]; exact id

/-- What the laws' power side looks at. -/
theorem KeepsPower.of_same {s t : State} (hp : t.pwc.power = s.pwc.power)
    (he : t.pwc.standbyEntry = s.pwc.standbyEntry) (hr : t.pwc.restartPending = s.pwc.restartPending)
    (hpr : t.hlc.processing = s.hlc.processing) (hb : t.hlc.buffer = s.hlc.buffer) (hm : t.svc.mode = s.svc.mode)
    (hd : t.dsr.reconcile = s.dsr.reconcile) (hw : t.jge.watches = s.jge.watches) : KeepsPower s t where
  power := hp
  entry := he
  restart := hr
  processing := hpr
  buffer := hb
  mode := by rw [hm]; exact id
  reconcile _ := by rw [hd]; exact id
  unarmed _ := by unfold Unarmed; rw [hw]; exact id

/-- A work that leaves all of it as it was, shown for each part by the laws of the updates it is made of. -/
theorem Tame.of_same {s t : State}
    (hl : t.ldt.entries.length = s.ldt.entries.length := by simp)
    (hj : t.jge.rules = s.jge.rules := by simp) (hf : t.flt = s.flt := by simp)
    (hd : s.dsr.list.length ≤ 8 → t.dsr.list.length ≤ 8 := by simp)
    (hs : t.stc = s.stc := by simp) (hc : t.clc = s.clc := by simp)
    (hp : t.pwc.power = s.pwc.power := by simp)
    (he : t.pwc.standbyEntry = s.pwc.standbyEntry := by simp)
    (hr : t.pwc.restartPending = s.pwc.restartPending := by simp)
    (hpr : t.hlc.processing = s.hlc.processing := by simp) (hb : t.hlc.buffer = s.hlc.buffer := by simp)
    (hm : t.svc.mode = s.svc.mode := by simp) (hrec : t.dsr.reconcile = s.dsr.reconcile := by simp)
    (hw : t.jge.watches = s.jge.watches := by simp) : Tame s t :=
  ⟨.of_same hl hj hf hd hs hc, .of_same hp he hr hpr hb hm hrec hw⟩

/-! ### The Fault Table's laws look at a record's key, state and kind -/

/-- The records as the laws of the Fault Table see them. -/
def recordMarks (f : Flt) : List (Option (FaultKey × RecordState × Kind)) :=
  f.records.map fun o => o.map fun r => (r.key, r.state, r.kind)

theorem recordMarks_of_contents {f g : Flt} (h : recordContents g = recordContents f) :
    recordMarks g = recordMarks f := by
  have key : ∀ x : Flt, recordMarks x =
      (recordContents x).map fun o => o.map fun r => (r.key, r.state, r.kind) := by
    intro x
    simp [recordMarks, recordContents, FaultRecord.content, Function.comp_def]
  rw [key, key, h]

theorem recordMarks_length (f : Flt) : (recordMarks f).length = f.records.length := by simp [recordMarks]

/-- The keys in the table, in the order of their positions. -/
def keysOf (f : Flt) : List FaultKey := (f.records.filterMap id).map (·.key)

theorem keysOf_eq_of_marks (f : Flt) : keysOf f = ((recordMarks f).filterMap id).map (·.1) := by
  simp [keysOf, recordMarks, List.filterMap_map, List.map_filterMap, Function.comp_def]

theorem KeysLaw.of_marks {f g : Flt} (h : recordMarks g = recordMarks f) (hk : KeysLaw f) : KeysLaw g := by
  have e : keysOf g = keysOf f := by rw [keysOf_eq_of_marks, keysOf_eq_of_marks, h]
  show (keysOf g).Nodup
  rw [e]
  exact hk

theorem mem_recordMarks {f : Flt} {m : FaultKey × RecordState × Kind} :
    some m ∈ recordMarks f ↔ ∃ r, some r ∈ f.records ∧ (r.key, r.state, r.kind) = m := by
  simp [recordMarks]

/-- A fast-flash law read from the marks (R119). -/
theorem FlashLaw_iff_marks (f : Flt) : FlashLaw f ↔ ∀ c : Circuit, c = 0 ∨ c = 1 →
    ((if c = 0 then f.fastLeft else f.fastRight) = true ↔
      ∃ t st k, some (.lamp t c, st, k) ∈ recordMarks f ∧ (st = .active ∨ st = .healing) ∧
        (k = .outage ∨ k = .unitLost)) := by
  unfold FlashLaw
  refine forall₂_congr fun c _ => iff_congr Iff.rfl ?_
  constructor
  · rintro ⟨r, t, hr, hk, hs, hd⟩
    exact ⟨t, r.state, r.kind, mem_recordMarks.2 ⟨r, hr, by rw [hk]⟩, hs, hd⟩
  · rintro ⟨t, st, k, hm, hs, hd⟩
    obtain ⟨r, hr, he⟩ := mem_recordMarks.1 hm
    obtain ⟨hk, rfl, rfl⟩ : r.key = .lamp t c ∧ r.state = st ∧ r.kind = k := by simpa using he
    exact ⟨r, t, hr, hk, hs, hd⟩

theorem FlashLaw.of_marks {f g : Flt} (h : recordMarks g = recordMarks f) (hl : g.fastLeft = f.fastLeft)
    (hr : g.fastRight = f.fastRight) (hf : FlashLaw f) : FlashLaw g := by
  rw [FlashLaw_iff_marks] at *
  rw [h, hl, hr]
  exact hf

/-- The requests are evaluated from the records whenever the table is left (R119). -/
theorem fastFlashDue_iff (c : Circuit) (records : List (Option FaultRecord)) : fastFlashDue c records = true ↔
    ∃ r t, some r ∈ records ∧ r.key = .lamp t c ∧ (r.state = .active ∨ r.state = .healing) ∧
      (r.kind = .outage ∨ r.kind = .unitLost) := by
  have one : ∀ r : FaultRecord, holdsFastFlash c r = true ↔
      ∃ t, r.key = .lamp t c ∧ (r.state = .active ∨ r.state = .healing) ∧ (r.kind = .outage ∨ r.kind = .unitLost) := by
    intro r
    unfold holdsFastFlash
    cases hk : r.key with
    | lamp t d => cases hs : r.state <;> simp
    | disagree d => simp
    | cadence d => simp
    | nodeLost n => simp
  simp only [fastFlashDue, List.any_eq_true, Option.any_eq_true]
  constructor
  · rintro ⟨o, ho, r, rfl, hr⟩
    obtain ⟨t, h⟩ := (one r).1 hr
    exact ⟨r, t, ho, h⟩
  · rintro ⟨r, t, hr, h⟩
    exact ⟨some r, hr, r, rfl, (one r).2 ⟨t, h⟩⟩

theorem commitFaults_flash (f : Flt) (s : State) : FlashLaw (commitFaults f s).flt := by
  intro c hc
  rw [commitFaults_flt]
  rcases hc with rfl | rfl
  · exact fastFlashDue_iff 0 f.records
  · exact fastFlashDue_iff 1 f.records

/-- An update of the Fault Table that keeps its marks and its requests, with whatever else the laws do not look at. -/
theorem KeepsTables.of_marks {s t : State} (hf : recordMarks t.flt = recordMarks s.flt)
    (hleft : t.flt.fastLeft = s.flt.fastLeft) (hright : t.flt.fastRight = s.flt.fastRight)
    (hl : t.ldt.entries.length = s.ldt.entries.length) (hj : t.jge.rules = s.jge.rules)
    (hd : s.dsr.list.length ≤ 8 → t.dsr.list.length ≤ 8) (hs : t.stc = s.stc) (hc : t.clc = s.clc) :
    KeepsTables s t where
  sized := by
    rintro ⟨hz, hlist⟩
    refine ⟨?_, hd hlist⟩
    have e : t.flt.records.length = s.flt.records.length := by
      rw [← recordMarks_length, hf, recordMarks_length]
    unfold SizesLaw at *
    rw [hl, hj, e, hs]
    exact hz
  chain := ChainLaw.congr hc
  keys _ := KeysLaw.of_marks hf
  flash := FlashLaw.of_marks hf hleft hright

end Sys2Proof.Machine
end


/-! ### The keys of the Fault Table -/

section
/-!
PROOFS. No operation on the Fault Table gives two records one key (R104): what one position's write does, and then each
operation by its writes. The census's re-keying needs the law of the chain table it re-keys from.
-/
namespace Sys2Proof.Machine

/-- One record a key, said of positions. -/
theorem KeysLaw_iff (f : Flt) : KeysLaw f ↔ ∀ (i j : Nat) (r q : FaultRecord),
    f.records[i]? = some (some r) → f.records[j]? = some (some q) → r.key = q.key → i = j := by
  unfold KeysLaw List.Nodup
  rw [List.pairwise_map, List.pairwise_filterMap, List.pairwise_iff_getElem]
  constructor
  · intro h i j r q hi hj hk
    obtain ⟨hi', hri⟩ := List.getElem?_eq_some_iff.1 hi
    obtain ⟨hj', hqj⟩ := List.getElem?_eq_some_iff.1 hj
    rcases Nat.lt_trichotomy i j with hlt | heq | hgt
    · exact absurd hk (h i j hi' hj' hlt r hri q hqj)
    · exact heq
    · exact absurd hk.symm (h j i hj' hi' hgt q hqj r hri)
  · intro h i j hi hj hlt r hr q hq hk
    have := h i j r q (List.getElem?_eq_some_iff.2 ⟨hi, hr⟩) (List.getElem?_eq_some_iff.2 ⟨hj, hq⟩) hk
    omega

/-- No record at another position has the key. -/
def Alone (f : Flt) (i : Nat) (k : FaultKey) : Prop :=
  ∀ j q, j ≠ i → f.records[j]? = some (some q) → q.key ≠ k

/-- A record written where no other has its key. -/
theorem KeysLaw.put {f : Flt} {i : Nat} {r : FaultRecord} (hf : KeysLaw f) (ha : Alone f i r.key) :
    KeysLaw (putRecord i r f) := by
  rw [KeysLaw_iff] at *
  intro a b x y hx hy hk
  simp only [putRecord, List.getElem?_set] at hx hy
  by_cases hia : i = a <;> by_cases hib : i = b
  · exact hia.symm.trans hib
  · subst hia
    simp only [if_true, if_neg hib] at hx hy
    obtain ⟨-, rfl⟩ : i < f.records.length ∧ r = x := by simpa using hx
    exact absurd hk.symm (ha b y (Ne.symm hib) hy)
  · subst hib
    simp only [if_true, if_neg hia] at hx hy
    obtain ⟨-, rfl⟩ : i < f.records.length ∧ r = y := by simpa using hy
    exact absurd hk (ha a x (Ne.symm hia) hx)
  · rw [if_neg hia] at hx
    rw [if_neg hib] at hy
    exact hf a b x y hx hy hk

/-- Each record taken away or replaced by one of its own key. -/
theorem KeysLaw.filtered {f g : Flt} (t : FaultRecord → Option FaultRecord)
    (hr : g.records = f.records.map fun o => o.bind t) (ht : ∀ r q, t r = some q → q.key = r.key) (hf : KeysLaw f) :
    KeysLaw g := by
  rw [KeysLaw_iff] at *
  intro a b x y hx hy hk
  simp only [hr, List.getElem?_map, Option.map_eq_some_iff, Option.bind_eq_some_iff] at hx hy
  obtain ⟨_, hx, x', rfl, hxt⟩ := hx
  obtain ⟨_, hy, y', rfl, hyt⟩ := hy
  exact hf a b x' y' hx hy (by rw [← ht _ _ hxt, ← ht _ _ hyt, hk])

theorem KeysLaw.drop {f : Flt} (hf : KeysLaw f) (i : Nat) : KeysLaw (dropRecord i f) := by
  rw [KeysLaw_iff] at *
  intro a b x y hx hy hk
  simp only [dropRecord, settleSaturated_records, List.getElem?_set] at hx hy
  have keep : ∀ {c : Nat} {z : FaultRecord},
      (if i = c then if i < f.records.length then some none else none else f.records[c]?) = some (some z) →
        f.records[c]? = some (some z) := by
    intro c z h
    split at h
    · split at h <;> simp at h
    · exact h
  exact hf a b x y (keep hx) (keep hy) hk

theorem KeysLaw.firstActive {f : Flt} {i : Nat} {r : FaultRecord} (hf : KeysLaw f) (ha : Alone f i r.key) :
    KeysLaw (firstActive i r f).1 :=
  KeysLaw.put (f := { f with activation := f.activation + 1 }) hf ha

/-- A key the search does not find is no record's. -/
theorem Alone.of_findRecord_none {f : Flt} {k : FaultKey} (h : findRecord f k = none) (i : Nat) : Alone f i k :=
  fun _ q _ hq => findRecord_none h q (List.mem_of_getElem? hq)

/-- A record the search finds is the only one of its key. -/
theorem Alone.of_findRecord_some {f : Flt} {k : FaultKey} {i : Nat} (hf : KeysLaw f) (h : findRecord f k = some i) :
    Alone f i k := by
  obtain ⟨r, hr, rfl, hi⟩ := findRecord_some h
  intro j q hj hq hk
  have hr' : f.records[i]? = some (some r) := by
    simp only [recordAt, List.getD, List.getElem?_eq_getElem hi, Option.getD_some] at hr
    rw [List.getElem?_eq_getElem hi, hr]
  exact hj ((KeysLaw_iff f).1 hf j i q r hq hr' hk)

theorem KeysLaw.createSuspect {f : Flt} {v : Verdict} (p : Params) (k : Kind) (hf : KeysLaw f)
    (h : findRecord f v.key = none) : KeysLaw (createSuspect p v k f).1 := by
  unfold Machine.createSuspect
  split
  · exact hf
  · simp only
    split
    · exact hf.firstActive (.of_findRecord_none h _)
    · exact hf.put (.of_findRecord_none h _)

theorem KeysLaw.significant {f : Flt} {i : Nat} {r : FaultRecord} (p : Params) (k : Kind) (hf : KeysLaw f)
    (ha : Alone f i r.key) : KeysLaw (significant p i r k f).1 := by
  unfold Machine.significant
  simp only
  split
  · split
    · exact hf.firstActive ha
    · exact hf.put ha
  · exact hf.put ha
  · exact hf.put ha

theorem KeysLaw.healed {f : Flt} {i : Nat} {r : FaultRecord} (p : Params) (hf : KeysLaw f)
    (ha : Alone f i r.key) : KeysLaw (healed p i r f).1 := by
  unfold Machine.healed
  split
  · exact hf.drop i
  · split
    · exact hf.drop i
    · exact hf.put ha
  · split
    · exact hf.drop i
    · exact hf.put ha

theorem KeysLaw.applyVerdict {f : Flt} (p : Params) (v : Verdict) (hf : KeysLaw f) :
    KeysLaw (applyVerdict p v f).1 := by
  unfold Machine.applyVerdict
  split
  · rename_i i r hi hr
    obtain ⟨q, hq, hk, -⟩ := findRecord_some hi
    obtain rfl : q = r := by simpa [recordOf, hi, hq] using hr
    have ha : Alone f i q.key := hk ▸ .of_findRecord_some hf hi
    split
    · exact hf.significant p _ ha
    · exact hf.healed p ha
  · rename_i hnone
    have hn : findRecord f v.key = none := by
      cases hi : findRecord f v.key with
      | none => rfl
      | some i =>
        obtain ⟨q, hq, -, -⟩ := findRecord_some hi
        exact absurd (by simp [recordOf, hi, hq]) (hnone i q hi)
    split
    · exact hf.createSuspect p _ hn
    · exact hf

theorem KeysLaw.applyBatch {f : Flt} (p : Params) (vs : List Verdict) (hf : KeysLaw f) :
    KeysLaw (applyBatch p vs f).1 := by
  induction vs generalizing f with
  | nil => exact hf
  | cons v vs ih =>
    rw [applyBatch_cons]
    exact ih (hf.applyVerdict p v)

theorem KeysLaw.createNodeLost {f : Flt} (n : Nat) (id : Identity) (hf : KeysLaw f) :
    KeysLaw (createNodeLost n id f).1 := by
  unfold Machine.createNodeLost
  split
  · exact hf
  · rename_i h
    split
    · exact hf
    · exact hf.firstActive (.of_findRecord_none (by simpa using h) _)

/-- What a test says of a record to be removed by it. -/
def without (t : FaultRecord → Bool) (r : FaultRecord) : Option FaultRecord := if t r then none else some r

theorem without_key (t : FaultRecord → Bool) (r q : FaultRecord) (h : without t r = some q) : q.key = r.key := by
  unfold without at h
  split at h
  · cases h
  · cases h; rfl

theorem removeWhere_records (t : FaultRecord → Bool) (b : Bool) (f : Flt) :
    (removeWhere t b f).1.records = f.records.map fun o => o.bind (without t) := by
  unfold removeWhere
  simp only
  split
  · rename_i h
    have hn : ∀ o ∈ f.records, o.bind (without t) = o := by
      intro o ho
      cases o with
      | none => rfl
      | some r =>
        simp only [recordsWhere, List.isEmpty_iff, List.filter_eq_nil_iff] at h
        have hr : t r = false := by simpa using h r (by simpa using ho)
        simp [without, hr]
    simpa using (List.map_congr_left hn).symm
  · simp only [settleSaturated_records]
    refine List.map_congr_left fun o _ => ?_
    cases o with
    | none => rfl
    | some r => cases h : t r <;> simp [Option.filter, without, h]

theorem KeysLaw.removeWhere {f : Flt} (t : FaultRecord → Bool) (b : Bool) (hf : KeysLaw f) :
    KeysLaw (removeWhere t b f).1 :=
  hf.filtered (without t) (removeWhere_records t b f) (without_key t)

/-! ### The census result (R32, R116) -/

/-- The new slots of two units are two (R32). -/
def CensusResult.Separates (res : CensusResult) : Prop :=
  ∀ n m k, res.newSlot n = some k → res.newSlot m = some k → n = m

theorem censusResult_newSlot {run : CensusRun} {coupling : Bool} {old : List Slot} {n k : Nat}
    (h : (censusResult run coupling old).newSlot n = some k) :
    n ≠ 0 ∧ ∃ x, old[n - 1]? = some x ∧
      ((newTable run coupling old).findIdx? (·.identity = x.identity)).map (· + 1) = some k := by
  unfold CensusResult.newSlot at h
  split at h
  · cases h
  · rename_i hn
    refine ⟨hn, ?_⟩
    simp only [censusResult, List.getD_eq_getElem?_getD, List.getElem?_map] at h
    cases hx : old[n - 1]? with
    | none => simp [hx] at h
    | some x => exact ⟨x, rfl, by simpa [hx] using h⟩

/-- By the law of the chain table: a new slot holds one identity, and the old table held each once. -/
theorem censusResult_separates (run : CensusRun) (coupling : Bool) {old : List Slot}
    (h : (old.map (·.identity)).Nodup) : (censusResult run coupling old).Separates := by
  intro n m k hn hm
  obtain ⟨hn0, x, hx, hkx⟩ := censusResult_newSlot hn
  obtain ⟨hm0, y, hy, hky⟩ := censusResult_newSlot hm
  obtain ⟨i, hi, rfl⟩ := Option.map_eq_some_iff.1 hkx
  obtain ⟨j, hj, he⟩ := Option.map_eq_some_iff.1 hky
  obtain rfl : j = i := by omega
  obtain ⟨_, hix, -⟩ := List.findIdx?_eq_some_iff_getElem.1 hi
  obtain ⟨_, hjy, -⟩ := List.findIdx?_eq_some_iff_getElem.1 hj
  have hid : x.identity = y.identity := by
    simp only [decide_eq_true_eq] at hix hjy
    exact hix.symm.trans hjy
  have hxi : (old.map (·.identity))[n - 1]? = some x.identity := by simp [hx]
  have hyi : (old.map (·.identity))[m - 1]? = some x.identity := by simp [hy, hid]
  have hlt' : n - 1 < (old.map (·.identity)).length := (List.getElem?_eq_some_iff.1 hxi).1
  have := (List.getElem?_inj hlt' h).1 (hxi.trans hyi.symm)
  omega

/-- The key a record has after the census. -/
def rekeyed (res : CensusResult) (k : FaultKey) : FaultKey :=
  match (keySlot k).bind res.newSlot with
  | some n => withSlot k n
  | none => k

theorem rekey_key (res : CensusResult) (r : FaultRecord) : (rekey res r).key = rekeyed res r.key := by
  unfold rekey rekeyed
  cases (keySlot r.key).bind res.newSlot <;> rfl

theorem keySlot_withSlot {k : FaultKey} {n : Nat} (h : keySlot k = some n) (m : Nat) :
    keySlot (withSlot k m) = some m := by
  unfold keySlot at h
  split at h <;> cases h <;> rfl

theorem withSlot_withSlot {k : FaultKey} {n : Nat} (h : keySlot k = some n) (m : Nat) :
    withSlot (withSlot k m) n = k := by
  unfold keySlot at h
  split at h <;> cases h <;> rfl

/-- A key whose slot, if it names one, has a new slot. -/
def Placeable (res : CensusResult) (k : FaultKey) : Prop := ∀ n, keySlot k = some n → (res.newSlot n).isSome = true

/-- A key either names no slot and stays, or names one whose new slot it takes. -/
theorem rekeyed_cases {res : CensusResult} {k : FaultKey} (h : Placeable res k) :
    (keySlot k = none ∧ rekeyed res k = k) ∨
      ∃ n m, keySlot k = some n ∧ res.newSlot n = some m ∧ rekeyed res k = withSlot k m := by
  cases hk : keySlot k with
  | none => exact .inl ⟨rfl, by simp [rekeyed, hk]⟩
  | some n =>
    obtain ⟨m, hm⟩ := Option.isSome_iff_exists.1 (h n hk)
    exact .inr ⟨n, m, rfl, hm, by simp [rekeyed, hk, hm]⟩

/-- Keys that follow their units stay apart (R116). -/
theorem rekeyed_injective {res : CensusResult} (hs : res.Separates) {a b : FaultKey} (ha : Placeable res a)
    (hb : Placeable res b) (h : rekeyed res a = rekeyed res b) : a = b := by
  rcases rekeyed_cases ha with ⟨hna, hea⟩ | ⟨n, i, hna, hni, hea⟩ <;>
    rcases rekeyed_cases hb with ⟨hnb, heb⟩ | ⟨m, j, hnb, hmj, heb⟩ <;> rw [hea, heb] at h
  · exact h
  · rw [h, keySlot_withSlot hnb] at hna
    cases hna
  · rw [← h, keySlot_withSlot hna] at hnb
    cases hnb
  · have hij : i = j := by
      have := congrArg keySlot h
      simpa [keySlot_withSlot hna, keySlot_withSlot hnb] using this
    subst hij
    obtain rfl := hs n m i hni hmj
    rw [← withSlot_withSlot hna i, h, withSlot_withSlot hnb]

/-- The records follow their units, each to a key of its own. -/
theorem KeysLaw.rekey {f g : Flt} {res : CensusResult} (hs : res.Separates) (hf : KeysLaw f)
    (hp : ∀ r, some r ∈ f.records → Placeable res r.key)
    (hg : g.records = f.records.map fun o => o.map (rekey res)) : KeysLaw g := by
  rw [KeysLaw_iff] at *
  intro a b x y hx hy hk
  simp only [hg, List.getElem?_map, Option.map_eq_some_iff] at hx hy
  obtain ⟨_, hx, x', rfl, rfl⟩ := hx
  obtain ⟨_, hy, y', rfl, rfl⟩ := hy
  rw [rekey_key, rekey_key] at hk
  exact hf a b x' y' hx hy
    (rekeyed_injective hs (hp x' (List.mem_of_getElem? hx)) (hp y' (List.mem_of_getElem? hy)) hk)

/-- What is left after the dropped units' records have gone has somewhere to go (R116). -/
theorem placeable_of_mem_removeWhere {f : Flt} {res : CensusResult} {b : Bool} {r : FaultRecord}
    (h : some r ∈ (removeWhere (unitDropped res) b f).1.records) : Placeable res r.key := by
  rw [removeWhere_records] at h
  obtain ⟨o, -, ho⟩ := List.mem_map.1 h
  obtain ⟨q, -, hq⟩ := Option.bind_eq_some_iff.1 ho
  unfold without at hq
  split at hq
  · cases hq
  · rename_i hd
    cases hq
    intro n hn
    simpa [unitDropped, hn, Option.isSome_iff_ne_none] using hd

theorem KeysLaw.foldl_createNodeLost (l : List (Nat × Identity)) (a : FltStep) (ha : KeysLaw a.1) :
    KeysLaw (l.foldl (fun acc x => acc.andThen (Machine.createNodeLost x.1 x.2)) a).1 := by
  induction l generalizing a with
  | nil => exact ha
  | cons x l ih => exact ih _ (ha.createNodeLost x.1 x.2)

/-- The four steps of R116 and the NODE-LOST records asked for. -/
theorem KeysLaw.applyCensus {f : Flt} {res : CensusResult} (hs : res.Separates) (hf : KeysLaw f) :
    KeysLaw (applyCensus res f).1 := by
  have hmoved := (hf.removeWhere (unitDropped res) false).rekey (res := res) hs
    (fun r hr => placeable_of_mem_removeWhere hr)
    (g := { (Machine.removeWhere (unitDropped res) false f).1 with
      records := (Machine.removeWhere (unitDropped res) false f).1.records.map fun o => o.map (Machine.rekey res) })
    rfl
  have hfound := hmoved.removeWhere (foundAgain res) true
  unfold Machine.applyCensus
  refine KeysLaw.foldl_createNodeLost _ _ ?_
  split
  · exact hfound.removeWhere isRemainderRecord false
  · exact hfound

end Sys2Proof.Machine
end


/-! ### The shared operations of the blocks are tame -/

section
/-!
PROOFS. One lemma for each operation the commands share: it keeps the tables' laws and what the power state excludes.
-/
namespace Sys2Proof.Machine

/-! ### Sending, marking, the clock and the end of an event -/

theorem reach_tame (d : Nat) (s : State) : Tame s (reach d s) := Tame.of_same

theorem send_tame (r : TxRecord) (s : State) : Tame s (send r s) := Tame.of_same

theorem refuse_tame (k : Byte) (r : Reason) (s : State) : Tame s (refuse k r s) := send_tame _ s

theorem sendAll_tame (rs : List TxRecord) (s : State) : Tame s (sendAll rs s) :=
  .foldl (fun s r => send_tame r s) rs s

theorem markIf_tame (b : Bool) (m : Matter) (s : State) : Tame s (markIf b m s) := Tame.of_same

theorem refreshLines_tame (s : State) : Tame s (refreshLines s) := Tame.of_same

theorem sendStatusChange_tame (s : State) : Tame s (sendStatusChange s) := by
  rw [sendStatusChange_eq]
  exact Tame.of_same

theorem finish_tame (s : State) : Tame s (finish s) := Tame.of_same

theorem setSvc_tame {v : Svc} {s : State} (h : v.mode = s.svc.mode) : Tame s (setSvc v s) :=
  Tame.of_same (hm := h)

theorem setLdt_tame {t : Ldt} {s : State} (h : t.entries.length = s.ldt.entries.length) : Tame s (setLdt t s) :=
  Tame.of_same (hl := h)

/-- The snapshot restarts the reconcile timer, so that it is one of ACTIVE (R142). -/
theorem sendSnapshot_tame {s : State} (ha : s.pwc.power = .active) : Tame s (sendSnapshot s) := by
  refine ⟨?_, ?_, ?_, ?_, ?_, ?_, ?_, ?_, ?_⟩
  · rw [sendSnapshot_eq]; exact .of_same rfl rfl rfl id rfl rfl
  · rw [sendSnapshot_eq]
  · rw [sendSnapshot_eq]
  · rw [sendSnapshot_eq]
  · simp
  · simp
  · rw [sendSnapshot_eq]; exact id
  · exact fun h => absurd ha h
  · exact fun h => absurd ha h

/-! ### The Fault Table left, and the list re-evaluated -/

/-- An operation's table committed: its places are as many, its keys are apart by the laws of the state the work began
from, and the requests are evaluated. -/
theorem Tame.commitFaults {f : Flt} {s u : State} (h : Tame s u) (hlen : f.records.length = u.flt.records.length)
    (hk : ChainLaw s → KeysLaw s.flt → KeysLaw f) : Tame s (commitFaults f u) where
  tables := {
    sized := by
      intro hs
      obtain ⟨hz, hl⟩ := h.tables.sized hs
      refine ⟨?_, by simpa [ListLaw] using hl⟩
      unfold SizesLaw at *
      simpa [hlen] using hz
    chain := fun hc => ChainLaw.congr (by simp) (h.tables.chain hc)
    keys := fun hc hq => by rw [commitFaults_flt]; exact hk hc hq
    flash := fun _ => commitFaults_flash f u }
  power := h.power.trans (by apply KeepsPower.of_same <;> simp)

theorem commitFaults_tame {f : Flt} {s : State} (hlen : f.records.length = s.flt.records.length)
    (hk : ChainLaw s → KeysLaw s.flt → KeysLaw f) : Tame s (commitFaults f s) :=
  (Tame.refl s).commitFaults hlen hk

theorem rebuildList_marks (p : Params) (f : Flt) (d : Dsr) :
    recordMarks (rebuildList p f d).1 = recordMarks f :=
  recordMarks_of_contents (rebuildList_contents p f d)

theorem reevaluate_power (before : ListView) (s : State) : KeepsPower s (reevaluate before s) := by
  have hsame : KeepsPower s { s with flt := (rebuildList s.params s.flt s.dsr).1,
                                     dsr := (rebuildList s.params s.flt s.dsr).2 } :=
    .of_same rfl rfl rfl rfl rfl rfl rfl rfl
  unfold reevaluate
  simp only
  split
  · rename_i h
    simp only [Bool.and_eq_true, decide_eq_true_eq] at h
    have ha : ({ s with flt := (rebuildList s.params s.flt s.dsr).1,
                        dsr := (rebuildList s.params s.flt s.dsr).2 } : State).pwc.power = .active := h.1
    exact hsame.trans (sendSnapshot_tame ha).power
  · exact hsame

theorem reevaluate_tame (before : ListView) (s : State) : Tame s (reevaluate before s) where
  tables := by
    refine .of_marks ?_ ?_ ?_ ?_ ?_ (fun _ => ?_) ?_ ?_
    case refine_6 => rw [reevaluate_list]; exact rebuildList_length _ _ _
    all_goals rw [reevaluate_eq]
    · exact rebuildList_marks _ _ _
    all_goals rfl
  power := reevaluate_power before s

theorem reportWake_tame (r : WakeRecord) (s : State) : Tame s (reportWake r s) := by
  unfold reportWake
  split
  · exact Tame.of_same
  · exact .refl s

theorem reportActivations_tame (es : List FltEffect) (s : State) : Tame s (reportActivations es s) := by
  refine .foldl (fun s e => ?_) es s
  cases e with
  | activated r => exact reportWake_tame _ s
  | removed r b => exact .refl s

theorem setList_power (l : List DisplayEntry) (s : State) : KeepsPower s (setList l s) :=
  .of_same rfl rfl rfl rfl rfl rfl rfl rfl

theorem handOverWith_flt (owned : List DisplayEntry → List DisplayEntry) (es : List FltEffect) (s : State) :
    (handOverWith owned es s).flt = { s.flt with records := (handOverWith owned es s).flt.records } := by
  unfold handOverWith
  simp only
  rw [reevaluate_eq, reportActivations_eq]
  rfl

/-- A hand-over leaves the Fault Table as it was but for entry ids, and a list of at most 8 entries, whatever the event
has made of the list before it. -/
theorem handOverWith_tame (owned : List DisplayEntry → List DisplayEntry) (es : List FltEffect) (s : State) :
    Tame s (handOverWith owned es s) where
  tables := by
    refine .of_marks (recordMarks_of_contents (handOverWith_contents owned es s)) ?_ ?_ ?_ ?_
      (fun _ => handOverWith_list owned es s) ?_ ?_
    · rw [handOverWith_flt]
    · rw [handOverWith_flt]
    all_goals rw [handOverWith_eq]
  power := by
    unfold handOverWith
    exact (reportActivations_tame es s).power.trans ((setList_power _ _).trans (reevaluate_power _ _))

theorem handOver_tame (es : List FltEffect) (s : State) : Tame s (handOver es s) := handOverWith_tame id es s

/-- An operation that keeps the places and the keys apart is tame with its hand-over. -/
theorem onFaults_tame {op : Flt → FltStep} {s : State} (hlen : (op s.flt).1.records.length = s.flt.records.length)
    (hk : ChainLaw s → KeysLaw s.flt → KeysLaw (op s.flt).1) : Tame s (onFaults op s) :=
  (commitFaults_tame hlen hk).trans (handOver_tame _ _)

theorem onFaults_applyBatch_tame (p : Params) (vs : List Verdict) (s : State) :
    Tame s (onFaults (applyBatch p vs) s) :=
  onFaults_tame (applyBatch_length p vs s.flt) fun _ h => h.applyBatch p vs

theorem onFaults_createNodeLost_tame (n : Nat) (id : Identity) (s : State) :
    Tame s (onFaults (createNodeLost n id) s) :=
  onFaults_tame (createNodeLost_length n id s.flt) fun _ h => h.createNodeLost n id

theorem onFaults_removeNodeLost_tame (n : Nat) (s : State) : Tame s (onFaults (removeNodeLost n) s) :=
  onFaults_tame (removeNodeLost_length n s.flt) fun _ h => h.removeWhere _ _

theorem removeLamps_tame (subject : Subject) (set : CircuitSet) (s : State) : Tame s (removeLamps subject set s) :=
  (commitFaults_tame (removeWhere_length _ _ _) fun _ h => h.removeWhere _ _).trans (handOverWith_tame _ _ _)

theorem clearFaults_tame (s : State) : Tame s (clearFaults s) :=
  (commitFaults_tame (removeWhere_length _ _ _) fun _ h => h.removeWhere _ _).trans (handOverWith_tame _ _ _)

/-! ### The Service Controller -/

theorem setSticky_tame (r : ServiceResult) (s : State) : Tame s (setSticky r s) := Tame.of_same (hm := rfl)

theorem endCapture_tame (r : ServiceResult) (s : State) : Tame s (endCapture r s) := by
  have hidle : Tame s { s with svc := { s.svc with state := .idle, captureTimer := none } } := Tame.of_same
  exact hidle.trans ((setSticky_tame r _).trans (send_tame _ _))

theorem endRelease_tame (r : ServiceResult) (s : State) : Tame s (endRelease r s) := by
  have hidle : Tame s { s with svc := { s.svc with state := .idle, release := none } } := Tame.of_same
  exact hidle.trans ((setSticky_tame r _).trans (send_tame _ _))

theorem breakOperation_tame (s : State) : Tame s (breakOperation s) := by
  unfold breakOperation
  split
  · exact endCapture_tame _ s
  · exact endRelease_tame _ s
  · exact .refl s
  · exact .refl s

theorem censusEndsCapture_tame (s : State) : Tame s (censusEndsCapture s) := by
  unfold censusEndsCapture
  split
  · exact endCapture_tame _ s
  · exact .refl s

/-- Service mode turned off is off. -/
theorem serviceOff_tame (s : State) : Tame s (serviceOff s) := by
  have hoff : Tame s { s with svc := { s.svc with mode := false } } :=
    ⟨.of_same rfl rfl rfl id rfl rfl, ⟨rfl, rfl, rfl, rfl, rfl, fun _ => rfl, fun _ => id, fun _ => id⟩⟩
  unfold serviceOff
  simp only
  split
  · exact hoff
  · exact hoff.trans (endCapture_tame _ _)
  · exact hoff.trans (endRelease_tame _ _)
  · exact hoff.trans (Tame.of_same (hm := rfl))

/-! ### The Store Controller -/

theorem setStoreFault_tame (b : StoreBlock) (x : Bool) (s : State) : Tame s (setStoreFault b x s) := by
  refine ⟨⟨?_, ChainLaw.congr (by simp), fun _ => ?_, ?_⟩, .of_same ?_ ?_ ?_ ?_ ?_ ?_ ?_ ?_⟩
  · rintro ⟨hz, hl⟩
    exact ⟨by unfold SizesLaw at *; simpa using hz, by simpa [ListLaw] using hl⟩
  all_goals simp

/-- The begin of a write copies tables whose places are as many as the block's (R61, R181). -/
theorem beginWrite_tame (b : StoreBlock) (s : State) : Tame s (beginWrite b s) := by
  refine ⟨⟨?_, ?_, fun _ => ?_, ?_⟩, .of_same ?_ ?_ ?_ ?_ ?_ ?_ ?_ ?_⟩
  · rintro ⟨⟨hl, hf, hj, hr, ha, hb⟩, hlist⟩
    cases b <;>
      exact ⟨⟨hl, hf, hj, by simpa [beginWrite, Copy.spoiled] using ‹_›,
        by simp_all [beginWrite, Copy.spoiled, storedEntries],
        by simp_all [beginWrite, Copy.spoiled, storedEntries]⟩, hlist⟩
  all_goals rw [beginWrite_eq]
  · exact ChainLaw.congr rfl
  · exact id
  · exact id

/-- The queue of writes is no table. -/
theorem setQueue_tame (q : List StoreBlock) (s : State) : Tame s { s with stc := { s.stc with queue := q } } :=
  ⟨⟨id, id, fun _ => id, id⟩, .of_same rfl rfl rfl rfl rfl rfl rfl rfl⟩

theorem askWrite_tame (b : StoreBlock) (s : State) : Tame s (askWrite b s) := by
  unfold askWrite
  split
  · exact beginWrite_tame b s
  · split
    · exact .refl s
    · exact setQueue_tame _ s

theorem nextWrite_tame (s : State) : Tame s (nextWrite s) := by
  unfold nextWrite
  split
  · exact .refl s
  · rename_i b rest _
    exact (setQueue_tame rest s).trans (beginWrite_tame b _)

/-! ### Judgement -/

theorem setSummary_tame (c : Circuit) (x : Summary) (s : State) : Tame s (setSummary c x s) :=
  Tame.of_same (hj := rfl) (hw := rfl)

theorem judgeOffer_tame (o : Offer) (s : State) : Tame s (judgeOffer o s).1 := by
  unfold judgeOffer
  simp only
  split
  · exact setSummary_tame _ _ s
  · exact (setSummary_tame _ _ s).trans
      (commitFaults_tame (applyBatch_length _ _ _) fun _ h => h.applyBatch _ _)

theorem captureAll_mode (p : Params) (o : Offer) (views : List SlotView) (rem : Option Tracked) (r : Int) (v : Svc) :
    (captureAll p o views rem r v).mode = v.mode := by
  unfold captureAll
  split
  · split
    · split <;> rfl
    · rfl
  · rfl

theorem handValues_tame (o : Offer) (t : Taken) (rem : Option Tracked) (s : State) :
    Tame s (handValues o t rem s) := by
  unfold handValues
  split
  · exact .refl s
  · refine Tame.of_same (hl := ?_) (hm := captureAll_mode _ _ _ _ _ _)
    simp only
    split <;> simp

theorem judge_tame (o : Offer) (s : State) : Tame s (judge o s) := by
  unfold judge
  simp only
  split
  · exact (judgeOffer_tame o s).trans ((handOver_tame _ _).trans (handValues_tame _ _ _ _))
  · exact (judgeOffer_tame o s).trans (handValues_tame _ _ _ _)

theorem setCircuit_tame (c : Circuit) (x : CircuitSense) (s : State) : Tame s (setCircuit c x s) := Tame.of_same

theorem setSenseSat_tame (c : Circuit) (b : Bool) (s : State) : Tame s (setSenseSat c b s) := Tame.of_same

theorem setLeak_tame (c : Circuit) (b : Bool) (s : State) : Tame s (setLeak c b s) := Tame.of_same

theorem setVoltage_tame (b : Bool) (s : State) : Tame s (setVoltage b s) := Tame.of_same

theorem setSfe_tame (x : Sfe) (s : State) : Tame s { s with sfe := x } := Tame.of_same

theorem offerVoltage_tame (o : Offer) (s : State) : Tame s (offerVoltage o s) := by
  unfold offerVoltage
  split
  · exact (setSfe_tame _ s).trans (setVoltage_tame _ _)
  · exact .refl s

theorem completeZero_tame (c : Circuit) (w : Window) (s : State) : Tame s (completeZero c w s) :=
  (setCircuit_tame _ _ _).trans ((setLeak_tame _ _ _).trans (setSenseSat_tame _ _ _))

theorem completeJudgement_tame (c : Circuit) (w : Window) (t : Nat) (s : State) :
    Tame s (completeJudgement c w t s) :=
  (setCircuit_tame _ _ _).trans ((setSenseSat_tame _ _ _).trans ((offerVoltage_tame _ _).trans (judge_tame _ _)))

theorem completeWindow_tame (c : Circuit) (x : CircuitSense) (s : State) : Tame s (completeWindow c x s) := by
  unfold completeWindow
  split
  · exact completeJudgement_tame _ _ _ s
  · exact completeZero_tame _ _ s
  · exact .refl s

theorem completeScanned_tame (old new : FunctionWord) (s : State) (c : Circuit) :
    Tame s (completeScanned old new s c) := by
  unfold completeScanned
  simp only
  split
  · exact (completeWindow_tame _ _ s).trans (finish_tame _)
  · exact .refl s

theorem scanFirst_tame (ended : Bool) (old new : FunctionWord) (s : State) : Tame s (scanFirst ended old new s) := by
  unfold scanFirst
  split
  · exact .refl s
  · exact .foldl (completeScanned_tame old new) _ s

/-! ### The watches -/

/-- In ACTIVE any watch may arm. -/
theorem setWatches_tame {f : Circuit → Watch → Watch} {s : State} (h : s.pwc.power = .active) :
    Tame s (setWatches f s) :=
  ⟨.of_same rfl rfl rfl id rfl rfl,
    ⟨rfl, rfl, rfl, rfl, rfl, id, fun _ => id, fun hp => absurd h hp⟩⟩

/-- A watch disarmed is none that counts down. -/
theorem disarmWatches_tame (s : State) : Tame s (disarmWatches s) :=
  ⟨.of_same rfl rfl rfl id rfl rfl,
    ⟨rfl, rfl, rfl, rfl, rfl, id, fun _ => id, fun _ _ c => by simp [disarmWatches, setWatches, disarmWatch]⟩⟩

end Sys2Proof.Machine
end


/-! ### The chain line's operations are tame -/

section
/-!
PROOFS. What a census and the polls do to the chain table and to the working table (R27, R31), and that the chain line's
operations keep the laws.
-/
namespace Sys2Proof.Machine

/-! ### The law of the chain table, and updates of the chain line that narrow what is open -/

/-- The ASSIGN that is due. -/
def taskAssigns (t : Option ChainTask) : List Assign :=
  match t with
  | some (.assign a) => [a]
  | _ => []

/-- The ASSIGN on the line. -/
def lineAssigns (l : Line) : List Assign :=
  match l with
  | .sending (.assign a) _ | .window (.assign a) _ => [a]
  | _ => []

theorem openAssigns_eq (k : Clc) : openAssigns k = taskAssigns k.task ++ lineAssigns k.line := rfl

@[simp] theorem lineAssigns_idle : lineAssigns .idle = [] := rfl
@[simp] theorem taskAssigns_none : taskAssigns none = [] := rfl
@[simp] theorem taskAssigns_roll : taskAssigns (some .roll) = [] := rfl
@[simp] theorem taskAssigns_assign (a : Assign) : taskAssigns (some (.assign a)) = [a] := rfl
@[simp] theorem lineAssigns_poll (t : Nat) : lineAssigns (.sending .poll t) = [] := rfl

theorem lineAssigns_sending (x : Exchange) (t u : Nat) : lineAssigns (.sending x t) = lineAssigns (.window x u) := by
  cases x <;> rfl

/-- A chain line with the same identities, the same census or none, and no ASSIGN opened. -/
theorem ChainLaw.narrow {s t : State} (ht : t.clc.table.map (·.identity) = s.clc.table.map (·.identity))
    (hc : t.clc.census = none ∨ t.clc.census = s.clc.census)
    (ho : (openAssigns t.clc).Sublist (openAssigns s.clc)) (h : ChainLaw s) : ChainLaw t := by
  obtain ⟨htable, hrun⟩ := h
  refine ⟨ht ▸ htable, fun run hr => ?_⟩
  rcases hc with hc | hc
  · rw [hc] at hr; cases hr
  · obtain ⟨hl, hlen, hopen⟩ := hrun run (hc ▸ hr)
    exact ⟨hl, ho.length_le.trans hlen, fun a ha => hopen a (ho.subset ha)⟩

/-- A chain line with a census whose working table is lawful and that has no ASSIGN open. -/
theorem ChainLaw.of_run {t : State} {run : CensusRun} (ht : TableLaw (t.clc.table.map (·.identity)))
    (hc : t.clc.census = some run) (hr : TableLaw (run.table.map (·.identity))) (ho : openAssigns t.clc = []) :
    ChainLaw t := by
  refine ⟨ht, fun r h => ?_⟩
  obtain rfl : run = r := Option.some.inj (hc.symm.trans h)
  simp [hr, ho]

/-- One with no census. -/
theorem ChainLaw.of_idle {t : State} (ht : TableLaw (t.clc.table.map (·.identity))) (hc : t.clc.census = none) :
    ChainLaw t :=
  ⟨ht, fun r h => by rw [hc] at h; cases h⟩

theorem setClc_tame {k : Clc} {s : State} (h : ChainLaw s → ChainLaw (setClc k s)) : Tame s (setClc k s) :=
  ⟨⟨id, h, fun _ => id, id⟩, .of_same rfl rfl rfl rfl rfl rfl rfl rfl⟩

theorem setClc_narrow_tame {k : Clc} {s : State} (ht : k.table.map (·.identity) = s.clc.table.map (·.identity))
    (hc : k.census = none ∨ k.census = s.clc.census) (ho : (openAssigns k).Sublist (openAssigns s.clc)) :
    Tame s (setClc k s) :=
  setClc_tame (ChainLaw.narrow ht hc ho)

theorem activeUntil_tame (t : Nat) (s : State) : Tame s (activeUntil t s) :=
  setClc_narrow_tame rfl (.inr rfl) (.refl _)

theorem openAssigns_idle_sublist {k k' : Clc} (ht : k'.task = k.task) (hl : k'.line = .idle) :
    (openAssigns k').Sublist (openAssigns k) := by
  simp [openAssigns_eq, ht, hl]

theorem endExchange_tame (t : Nat) (s : State) : Tame s (endExchange t s) :=
  setClc_narrow_tame rfl (.inr rfl) (openAssigns_idle_sublist rfl rfl)

theorem closeVisit_tame (s : State) : Tame s (closeVisit s) := by
  unfold closeVisit
  simp only
  split
  · split <;> exact setClc_narrow_tame rfl (.inr rfl) (openAssigns_idle_sublist rfl rfl)
  · exact setClc_narrow_tame rfl (.inr rfl) (openAssigns_idle_sublist rfl rfl)

theorem startCensus_chain {s : State} (h : ChainLaw s) : ChainLaw (startCensus s) := by
  obtain ⟨htable, hcensus, htask, hline, -⟩ := startCensus_clc s
  refine .of_run (htable ▸ h.1) hcensus (by simp [emptyRun, TableLaw]) ?_
  simp [openAssigns_eq, htask, hline]

theorem startCensus_tame (s : State) : Tame s (startCensus s) := by
  refine ⟨⟨?_, startCensus_chain, fun _ => ?_, ?_⟩, ?_⟩
  · rintro ⟨hz, hl⟩
    rw [startCensus_eq]
    exact ⟨hz, hl⟩
  · rw [startCensus_eq]; exact id
  · rw [startCensus_eq]; exact id
  · unfold startCensus
    refine KeepsPower.trans ?_ (censusEndsCapture_tame _).power
    exact .of_same rfl rfl rfl rfl rfl rfl rfl rfl

theorem triggerCensus_tame (s : State) : Tame s (triggerCensus s) := by
  unfold triggerCensus
  split
  · exact startCensus_tame s
  · exact .refl s

theorem coupledEdge_tame (s : State) : Tame s (coupledEdge s) := by
  have hflag : Tame s (setClc { s.clc with coupling := true } s) := setClc_narrow_tame rfl (.inr rfl) (.refl _)
  unfold coupledEdge
  simp only
  split
  · exact hflag.trans (startCensus_tame _)
  · exact hflag

theorem abortCensus_tame (s : State) : Tame s (abortCensus s) := by
  unfold abortCensus
  split
  · exact .refl s
  · exact setClc_narrow_tame rfl (.inl rfl) (by simp [openAssigns_eq, abandonLine])

/-! ### The completed census (R31) -/

/-- The new table is the units assigned and old units that are not among them, six in all (R31). -/
theorem newTable_law {run : CensusRun} {coupling : Bool} {old : List Slot}
    (hr : TableLaw (run.table.map (·.identity))) (ho : TableLaw (old.map (·.identity))) :
    TableLaw ((newTable run coupling old).map (·.identity)) := by
  have hret : (retainedFrom run coupling old).Sublist (missingSlots run old) := by
    unfold retainedFrom
    split
    · exact List.nil_sublist _
    · exact List.take_sublist _ _
  have hlen : (retainedFrom run coupling old).length ≤ 6 - run.table.length := by
    unfold retainedFrom
    split <;> simp
  have hids : (newTable run coupling old).map (·.identity) =
      run.table.map (·.identity) ++ (retainedFrom run coupling old).map (·.identity) := by
    simp [newTable, enumeratedSlot, retainedSlot, Function.comp_def]
  obtain ⟨hr6, hrn⟩ := hr
  obtain ⟨-, hon⟩ := ho
  rw [List.length_map] at hr6
  refine ⟨by simp [newTable]; omega, ?_⟩
  rw [hids, List.nodup_append]
  refine ⟨hrn, (hon.sublist ((hret.trans List.filter_sublist).map _)), ?_⟩
  rintro a ha b hb rfl
  obtain ⟨x, hx, rfl⟩ := List.mem_map.1 hb
  obtain ⟨n, hn, hnx⟩ := List.mem_map.1 ha
  have hmissing := (List.mem_filter.1 (hret.subset hx)).2
  simp only [Bool.not_eq_true', List.any_eq_false, decide_eq_true_eq] at hmissing
  exact hmissing n hn hnx

theorem foldl_reportWake_tame (l : List (Nat × Identity)) (s : State) :
    Tame s (l.foldl (fun acc x => reportWake (compositionReport x.1 x.2) acc) s) :=
  .foldl (fun s _ => reportWake_tame _ s) l s

/-- The first of the completion's parts: the chain line's own, with its notice (R33). -/
def censusClosed (run : CensusRun) (s : State) : State :=
  send (.censusDone s.clc.censusNumber (censusCounts run s.clc.coupling s.clc.table)) (closeCensus run s)

/-- The second: the Load Table's (R47, R50). -/
def censusLoads (run : CensusRun) (s : State) : State :=
  let t := lookup (identitiesOf (censusClosed run s).clc.table) (censusClosed run s).ldt
  setLoadsFull (loadsFullDue t)
    { censusClosed run s with ldt := { t with loadsFull := (censusClosed run s).ldt.loadsFull } }

/-- A completion in its parts, in the order of R203. -/
theorem completeCensus_parts (run : CensusRun) (s : State) :
    completeCensus run s =
      handOverWith
        (fun list => list.filterMap
          (censusResolved (identitiesOf s.clc.table) (censusResult run s.clc.coupling s.clc.table)))
        (applyCensus (censusResult run s.clc.coupling s.clc.table) (censusLoads run s).flt).2
        ((censusResult run s.clc.coupling s.clc.table).newlyLost.foldl
          (fun acc x => reportWake (compositionReport x.1 x.2) acc)
          (commitFaults (applyCensus (censusResult run s.clc.coupling s.clc.table) (censusLoads run s).flt).1
            (censusLoads run s))) := rfl

theorem censusLoads_tame (run : CensusRun) (s : State) : Tame (censusClosed run s) (censusLoads run s) :=
  Tame.of_same (hl := by simp [censusLoads]) (hj := by simp [censusLoads]) (hf := by simp [censusLoads])
    (hd := by simp [censusLoads]) (hs := by simp [censusLoads]) (hc := by simp [censusLoads])
    (hp := by simp [censusLoads]) (he := by simp [censusLoads]) (hr := by simp [censusLoads])
    (hpr := by simp [censusLoads]) (hb := by simp [censusLoads]) (hm := by simp [censusLoads])
    (hrec := by simp [censusLoads]) (hw := by simp [censusLoads])

theorem censusLoads_flt (run : CensusRun) (s : State) : (censusLoads run s).flt = s.flt := by
  simp [censusLoads, censusClosed, closeCensus, setClc]

/-- A census completion, with a lawful working table. -/
theorem Tame.completeCensus {s u : State} {run : CensusRun} (h : Tame s u)
    (hr : ChainLaw s → TableLaw (run.table.map (·.identity))) : Tame s (completeCensus run u) := by
  have hclose : Tame s (closeCensus run u) := by
    refine ⟨⟨h.tables.sized, fun hc => .of_idle ?_ rfl, h.tables.keys, h.tables.flash⟩,
      h.power.trans (.of_same rfl rfl rfl rfl rfl rfl rfl rfl)⟩
    exact newTable_law (hr hc) (h.tables.chain hc).1
  have hloads : Tame s (censusLoads run u) :=
    hclose.trans ((send_tame _ _).trans (censusLoads_tame run u))
  have hkeys : ChainLaw s → KeysLaw s.flt →
      KeysLaw (applyCensus (censusResult run u.clc.coupling u.clc.table) (censusLoads run u).flt).1 := by
    intro hc hk
    obtain ⟨-, hold⟩ := (h.tables.chain hc).1
    exact (hloads.tables.keys hc hk).applyCensus (censusResult_separates run _ hold)
  rw [completeCensus_parts]
  exact (hloads.commitFaults (applyCensus_length _ _) hkeys).trans
    ((foldl_reportWake_tame _ _).trans (handOverWith_tame _ _ _))

/-! ### Roll and assign steps (R26 to R28) -/

/-- The slot chosen is one the working table has room for (R27). -/
theorem placeNode_fits (run : CensusRun) (node : Placed) (h : (placeNode run node).choice = .slot) :
    (placeNode run node).node.identity ∉ run.table.map (·.identity) ∧ run.table.length < 6 := by
  unfold placeNode at *
  split at h
  · cases h
  · rename_i hnew
    split at h
    · cases h
    · rename_i hroom
      rw [if_neg hnew, if_neg hroom]
      simp only [List.any_eq_true, decide_eq_true_eq, not_exists, not_and] at hnew
      refine ⟨?_, by omega⟩
      rintro hm
      obtain ⟨x, hx, he⟩ := List.mem_map.1 hm
      exact hnew x hx he

/-- The choice taken leaves a lawful working table (R27, R28). -/
theorem applyChoice_law {a : Assign} {run : CensusRun} (hr : TableLaw (run.table.map (·.identity)))
    (ha : a.choice = .slot → a.node.identity ∉ run.table.map (·.identity) ∧ run.table.length < 6) :
    TableLaw ((applyChoice a run).table.map (·.identity)) := by
  unfold applyChoice
  split
  · rename_i hslot
    obtain ⟨hnew, hroom⟩ := ha hslot
    refine ⟨by simp; omega, ?_⟩
    simp only [List.map_append, List.map_cons, List.map_nil]
    exact hr.2.append (by simp) (by simpa using hnew)
  · exact hr
  · exact hr

/-- A census goes on with one ASSIGN due, for which the working table has room. -/
theorem ChainLaw.assign_due {s t : State} {run : CensusRun} {a : Assign}
    (ht : t.clc.table = s.clc.table) (hc : t.clc.census = some run) (hk : t.clc.task = some (.assign a))
    (hline : t.clc.line = .idle) (hr : TableLaw (run.table.map (·.identity)))
    (ha : a.choice = .slot → a.node.identity ∉ run.table.map (·.identity) ∧ run.table.length < 6)
    (h : ChainLaw s) : ChainLaw t := by
  refine ⟨ht ▸ h.1, fun r he => ?_⟩
  obtain rfl : run = r := Option.some.inj (hc.symm.trans he)
  have ho : openAssigns t.clc = [a] := by simp [openAssigns_eq, hk, hline]
  rw [ho]
  exact ⟨hr, le_rfl, by simpa using ha⟩

theorem rollAnswered_tame {node : Placed} {run : CensusRun} {s : State} (hc : s.clc.census = some run)
    (hline : s.clc.line = .idle) : Tame s (rollAnswered node run s) :=
  setClc_tame fun h => h.assign_due (s := s) rfl rfl rfl hline (h.2 run hc).1 (placeNode_fits run node)

theorem rollUnanswered_tame {run : CensusRun} {s : State} (hc : s.clc.census = some run)
    (hline : s.clc.line = .idle) : Tame s (rollUnanswered run s) := by
  unfold rollUnanswered
  split
  · exact (Tame.refl s).completeCensus fun h => (h.2 run hc).1
  · exact setClc_tame fun h => .of_run h.1 rfl (h.2 run hc).1 (by simp [openAssigns_eq, hline, setClc])

/-- An ASSIGN that was on the line, taken up after its exchange. -/
theorem assignDone_tame {a : Assign} {run : CensusRun} {t : Nat} {s : State} (hc : s.clc.census = some run)
    (ha : a ∈ openAssigns s.clc) : Tame s (assignDone a run (endExchange t s)) := by
  have hlaw : ChainLaw s → TableLaw ((applyChoice a run).table.map (·.identity)) := fun h => by
    obtain ⟨hr, -, hopen⟩ := h.2 run hc
    exact applyChoice_law hr (hopen a ha)
  unfold assignDone
  simp only
  split
  · exact (endExchange_tame t s).completeCensus hlaw
  · refine ⟨⟨id, fun h => .of_run h.1 rfl (hlaw h) rfl, fun _ => id, id⟩,
      .of_same rfl rfl rfl rfl rfl rfl rfl rfl⟩

theorem assignFailed_tame {a : Assign} {run : CensusRun} {t : Nat} {s : State} (hc : s.clc.census = some run)
    (ha : a ∈ openAssigns s.clc) : Tame s (assignFailed a run (endExchange t s)) := by
  unfold assignFailed
  split
  · exact (endExchange_tame t s).completeCensus fun h => (h.2 run hc).1
  · refine ⟨⟨id, fun h => ?_, fun _ => id, id⟩, .of_same rfl rfl rfl rfl rfl rfl rfl rfl⟩
    obtain ⟨hr, -, hopen⟩ := h.2 run hc
    exact h.assign_due (s := s) (a := { a with repeated := true }) rfl hc rfl rfl hr (hopen a ha)

/-! ### Visits (R34, R36 to R38) -/

/-- A slot written with the unit it had. -/
theorem setSlot_tame {n : Nat} {x y : Slot} {s : State} (hx : slotOf s n = some x) (hy : y.identity = x.identity) :
    Tame s (setSlot n y s) := by
  refine setClc_narrow_tame ?_ (.inr rfl) (.refl _)
  have hat : s.clc.table[n - 1]? = some x := by
    unfold slotOf at hx
    split at hx
    · cases hx
    · exact hx
  obtain ⟨hlt, he⟩ := List.getElem?_eq_some_iff.1 hat
  have hset := List.set_getElem_self (as := s.clc.table.map (·.identity)) (i := n - 1) (by simpa using hlt)
  simpa [hy, he] using hset

theorem missedSlot_identity (x : Slot) : (missedSlot x).identity = x.identity := rfl

theorem slotBecameStale_tame (s : State) : Tame s (slotBecameStale s) := by
  unfold slotBecameStale
  split
  · split
    · exact setClc_narrow_tame rfl (.inr rfl) (.refl _)
    · exact triggerCensus_tame s
  · exact .refl s

theorem slotBecameLost_tame (n : Nat) (identity : Identity) (s : State) : Tame s (slotBecameLost n identity s) := by
  have hcount : Tame s { s with freeCount := s.freeCount + 1 } := Tame.of_same
  unfold slotBecameLost
  simp only
  split
  · split
    · exact hcount.trans ((reportWake_tame _ _).trans (onFaults_createNodeLost_tame _ _ _))
    · exact hcount.trans ((onFaults_createNodeLost_tame _ _ _).trans (reportWake_tame _ _))
  · exact onFaults_createNodeLost_tame _ _ _

theorem visitMissed_tame (n : Nat) (s : State) : Tame s (visitMissed n s) := by
  unfold visitMissed
  split
  · exact .refl s
  · rename_i x hx
    have hset := setSlot_tame hx (missedSlot_identity x)
    simp only
    split
    · exact hset.trans (slotBecameStale_tame _)
    · split
      · exact hset.trans (slotBecameLost_tame _ _ _)
      · exact hset

theorem visitGood_tame {n : Nat} {x : Slot} {s : State} (r : Report) (hx : slotOf s n = some x) :
    Tame s (visitGood n x r s) := by
  have hset : Tame s (setSlot n
      { x with state := .present, misses := 0, latest := some { report := r, arrival := s.now } } s) :=
    setSlot_tame hx rfl
  unfold visitGood
  simp only
  split
  · exact hset.trans ((onFaults_removeNodeLost_tame _ _).trans (reportWake_tame _ _))
  · exact hset

theorem visitReported_tame (n : Nat) (r : Report) (s : State) : Tame s (visitReported n r s) := by
  unfold visitReported
  split
  · exact .refl s
  · rename_i x hx
    split
    · exact visitGood_tame r hx
    · exact (reportWake_tame _ s).trans (triggerCensus_tame _)

theorem visitBusy_tame (v : Visit) (s : State) : Tame s (visitBusy v s) := by
  unfold visitBusy
  split
  · exact setClc_narrow_tame rfl (.inr rfl) (.refl _)
  · exact (closeVisit_tame s).trans (visitMissed_tame _ _)

/-! ### Frames of the part and the ends of exchanges (R18) -/

theorem beginFrame_poll_tame (s : State) : Tame s (beginFrame .poll s) :=
  setClc_narrow_tame rfl (.inr rfl) (by simp [openAssigns_eq])

/-- A census frame takes the line with the ASSIGN that was due, if it is one. -/
theorem sendTask_tame {x : Exchange} {s : State} (hline : s.clc.line = .idle)
    (hx : ∀ t, lineAssigns (.sending x t) = taskAssigns s.clc.task) : Tame s (sendTask x s) := by
  have hopen : ∀ k : Clc, k.task = none → (∃ t, k.line = .sending x t) → openAssigns k = openAssigns s.clc := by
    rintro k hk ⟨t, hl⟩
    simp [openAssigns_eq, hk, hl, hline, hx]
  have hchain : ChainLaw (reach (lineReady s.clc) s) → ChainLaw (sendTask x s) :=
    ChainLaw.narrow rfl (.inr rfl) (by rw [hopen _ rfl ⟨_, rfl⟩]; exact .refl _)
  exact (reach_tame _ s).trans ⟨⟨id, hchain, fun _ => id, id⟩, .of_same rfl rfl rfl rfl rfl rfl rfl rfl⟩

/-- The ASSIGN of an exchange is the one on the line. -/
def OnLine (x : Exchange) (k : Clc) : Prop := ∀ a, x = .assign a → a ∈ openAssigns k

theorem OnLine.of_window {x : Exchange} {t : Nat} {k : Clc} (h : k.line = .window x t) : OnLine x k := by
  rintro a rfl
  simp [openAssigns_eq, h, lineAssigns]

theorem failExchange_tame {x : Exchange} {s : State} (idleSince : Nat) (hx : OnLine x s.clc) :
    Tame s (failExchange x idleSince s) := by
  unfold failExchange
  split
  · rename_i hc
    exact (endExchange_tame _ s).trans (rollUnanswered_tame hc rfl)
  · rename_i _ a run hc
    exact assignFailed_tame hc (hx a rfl)
  · exact (closeVisit_tame s).trans (visitMissed_tame _ _)
  · exact endExchange_tame _ s

theorem answerExchange_tame {x : Exchange} {s : State} (answer : Answer) (hx : OnLine x s.clc) :
    Tame s (answerExchange x answer s) := by
  unfold answerExchange
  split
  · rename_i hc
    exact (endExchange_tame _ s).trans (rollAnswered_tame hc rfl)
  · rename_i _ a payload run hc
    split
    · exact assignDone_tame hc (hx a rfl)
    · exact assignFailed_tame hc (hx a rfl)
  · exact (closeVisit_tame s).trans (visitReported_tame _ _ _)
  · exact (endExchange_tame _ s).trans (visitBusy_tame _ _)
  · exact failExchange_tame _ hx

end Sys2Proof.Machine
end


/-! ### What the owners' work keeps -/

section
/-!
PROOFS. The work of each host record's owner: it keeps the tables' laws whatever the power state, and in ACTIVE, where
alone it is done (IDENTIFY and STATUS apart), the power state with the frames at hand.
-/
namespace Sys2Proof.Machine

/-- A work that is tame in ACTIVE. -/
structure Serves (s t : State) : Prop where
  tables : KeepsTables s t
  power : s.pwc.power = .active → KeepsPower s t

/-- What the course of a host record asks of its owner's work in ACTIVE: the frames at hand stay, and an entry it begins
is one with service mode off. -/
structure KeepsFrames (s t : State) : Prop where
  power : t.pwc.power = s.pwc.power
  processing : t.hlc.processing = s.hlc.processing
  buffer : t.hlc.buffer = s.hlc.buffer
  entry : s.pwc.standbyEntry = false → t.pwc.standbyEntry = true → t.svc.mode = false

theorem Tame.serves {s t : State} (h : Tame s t) : Serves s t := ⟨h.tables, fun _ => h.power⟩

theorem Serves.trans {s t u : State} (h : Serves s t) (k : Serves t u) : Serves s u :=
  ⟨h.tables.trans k.tables, fun ha => (h.power ha).trans (k.power ((h.power ha).power.trans ha))⟩

theorem KeepsPower.frames {s t : State} (h : KeepsPower s t) : KeepsFrames s t :=
  ⟨h.power, h.processing, h.buffer, fun h0 h1 => by rw [h.entry, h0] at h1; cases h1⟩

theorem sendSnapshot_serves (s : State) : Serves s (sendSnapshot s) := by
  refine ⟨?_, fun ha => (sendSnapshot_tame ha).power⟩
  rw [sendSnapshot_eq]
  exact .of_same rfl rfl rfl id rfl rfl

theorem setWatches_serves (f : Circuit → Watch → Watch) (s : State) : Serves s (setWatches f s) :=
  ⟨.of_same rfl rfl rfl id rfl rfl, fun ha => (setWatches_tame ha).power⟩

theorem evaluateWatches_serves (s : State) : Serves s (evaluateWatches s) := setWatches_serves _ s

/-! ### Reading -/

theorem answerIdentify_tame (s : State) : Tame s (answerIdentify s) := send_tame _ s

theorem answerReadLoads_tame (n : Nat) (s : State) : Tame s (answerReadLoads n s) := by
  unfold answerReadLoads
  split
  · exact refuse_tame _ _ s
  · split
    · exact refuse_tame _ _ s
    · exact send_tame _ s

theorem answerReadFaults_tame (n : Nat) (s : State) : Tame s (answerReadFaults n s) := by
  unfold answerReadFaults
  split
  · exact refuse_tame _ _ s
  · exact send_tame _ s

theorem answerReadParam_tame (id c : Nat) (s : State) : Tame s (answerReadParam id c s) := by
  unfold answerReadParam
  split
  · exact refuse_tame _ _ s
  · exact send_tame _ s

theorem answerReadRule_tame (n : Nat) (s : State) : Tame s (answerReadRule n s) := by
  unfold answerReadRule
  split
  · exact refuse_tame _ _ s
  · exact send_tame _ s

theorem answerDisplay_serves (s : State) : Serves s (answerDisplay s) :=
  (send_tame _ s).serves.trans (sendSnapshot_serves _)

/-! ### Settings -/

theorem setParams_tame (p : Params) (s : State) : Tame s { s with params := p } := Tame.of_same

theorem parameterEffect_tame (id : Nat) (old new : Params) (s : State) :
    Tame s (parameterEffect id old new s) := by
  unfold parameterEffect
  split
  · split
    · exact .refl s
    · exact setLdt_tame (endAllRuns_length s.ldt)
  · split
    · exact reevaluate_tame _ s
    · exact .refl s

theorem answerSetParam_tame (id c v : Nat) (s : State) : Tame s (answerSetParam id c v s) := by
  unfold answerSetParam
  split
  · exact refuse_tame _ _ s
  · exact (send_tame _ s).trans ((setParams_tame _ _).trans (parameterEffect_tame _ _ _ _))

theorem setRule_tame (n : Nat) (r : Rule) (s : State) : Tame s (setRule n r s) := by
  refine ⟨⟨?_, ChainLaw.congr rfl, fun _ => id, id⟩, .of_same rfl rfl rfl rfl rfl rfl rfl rfl⟩
  rintro ⟨hz, hl⟩
  exact ⟨by unfold SizesLaw at *; simpa [setRule] using hz, hl⟩

theorem evaluateAfterWrite_serves (s : State) : Serves s (evaluateAfterWrite s) := by
  unfold evaluateAfterWrite
  split
  · exact (Tame.refl _).serves
  · exact evaluateWatches_serves _

theorem answerWriteRule_serves (body : List Byte) (s : State) : Serves s (answerWriteRule body s) := by
  unfold answerWriteRule
  split
  · exact (refuse_tame _ _ s).serves
  · exact ((send_tame _ s).trans (setRule_tame _ _ _)).serves.trans (evaluateAfterWrite_serves _)

theorem answerStoreConfig_tame (s : State) : Tame s (answerStoreConfig s) :=
  (send_tame _ s).trans ((askWrite_tame _ _).trans (askWrite_tame _ _))

/-! ### Census, RELEARN and the power requests -/

theorem answerCensus_tame (s : State) : Tame s (answerCensus s) := by
  unfold answerCensus
  split
  · exact refuse_tame _ _ s
  · exact (send_tame _ s).trans (triggerCensus_tame _)

theorem answerRelearn_tame (code : Byte) (set : CircuitSet) (s : State) : Tame s (answerRelearn code set s) := by
  unfold answerRelearn
  split
  · exact refuse_tame _ _ s
  · exact (send_tame _ s).trans ((setLdt_tame (editEntry_length _ _ _)).trans (removeLamps_tame _ _ _))

theorem setPwc_tame {p : Pwc} {s : State} (hp : p.power = s.pwc.power) (he : p.standbyEntry = s.pwc.standbyEntry)
    (hr : p.restartPending = s.pwc.restartPending) : Tame s { s with pwc := p } :=
  Tame.of_same (hp := hp) (he := he) (hr := hr)

theorem answerClearWake_tame (code : Nat) (s : State) : Tame s (answerClearWake code s) := by
  unfold answerClearWake
  split
  · exact refuse_tame _ _ s
  · rename_i w _
    have hcleared : Tame s { s with pwc := clearFlags w s.pwc } := setPwc_tame rfl rfl rfl
    exact hcleared.trans (send_tame _ _)

theorem setStandbyEntry_tables (b : Bool) (s : State) : KeepsTables s (setStandbyEntry b s) :=
  ⟨id, id, fun _ => id, id⟩

/-- The work an entry begins with, behind its mark. -/
theorem beginEntry_tame (s : State) :
    ∃ t, beginEntry s = t ∧ Tame (setStandbyEntry true (abortCensus s)) t :=
  ⟨_, rfl, (setLdt_tame (endAllRuns_length _)).trans ((askWrite_tame _ _).trans (askWrite_tame _ _))⟩

theorem answerStandby_tables (s : State) : KeepsTables s (answerStandby s) := by
  unfold answerStandby
  split
  · exact (refuse_tame _ _ s).tables
  · split
    · exact (refuse_tame _ _ s).tables
    · obtain ⟨t, ht, hk⟩ := beginEntry_tame (send (.ok 0x0E) s)
      rw [ht]
      exact ((send_tame _ s).trans (abortCensus_tame _)).tables.trans
        ((setStandbyEntry_tables true _).trans hk.tables)

theorem answerStandby_frames (s : State) : KeepsFrames s (answerStandby s) := by
  unfold answerStandby
  split
  · exact (refuse_tame _ _ s).power.frames
  · rename_i hm
    split
    · exact (refuse_tame _ _ s).power.frames
    · obtain ⟨t, ht, hk⟩ := beginEntry_tame (send (.ok 0x0E) s)
      have ha := ((send_tame (.ok 0x0E) s).trans (abortCensus_tame _)).power
      rw [ht]
      exact ⟨hk.power.power.trans ha.power, hk.power.processing.trans ha.processing,
        hk.power.buffer.trans ha.buffer, fun _ _ => hk.power.mode (ha.mode (by simpa using hm))⟩

theorem answerRestart_tables (s : State) : KeepsTables s (answerRestart s) := by
  unfold answerRestart
  split
  · exact (refuse_tame _ _ s).tables
  · exact KeepsTables.trans (send_tame (.ok 0x0F) s).tables ⟨id, id, fun _ => id, id⟩

theorem answerRestart_frames (s : State) : KeepsFrames s (answerRestart s) := by
  unfold answerRestart
  split
  · exact (refuse_tame _ _ s).power.frames
  · have h := (send_tame (.ok 0x0F) s).power
    exact ⟨h.power, h.processing, h.buffer, h.frames.entry⟩

/-! ### Service -/

theorem answerServiceEnter_tables (s : State) : KeepsTables s (answerServiceEnter s) := by
  unfold answerServiceEnter
  split
  · have hon : KeepsTables s (setSvc { s.svc with mode := true } s) := .of_same rfl rfl rfl id rfl rfl
    exact hon.trans (send_tame _ _).tables
  · exact (refuse_tame _ _ s).tables

theorem answerServiceEnter_frames (s : State) : KeepsFrames s (answerServiceEnter s) := by
  unfold answerServiceEnter
  split
  · exact ⟨rfl, by simp, by simp, fun h0 h1 => by simp [h0] at h1⟩
  · exact (refuse_tame _ _ s).power.frames

theorem answerServiceLeave_tame (s : State) : Tame s (serviceOff (send (.ok 0x12) s)) :=
  (send_tame _ s).trans (serviceOff_tame _)

theorem answerServiceReset_tame (s : State) : Tame s (setSvc (clearedService s.svc) (send (.ok 0x13) s)) :=
  (send_tame _ s).trans (setSvc_tame rfl)

theorem startCapture_tame (k : Capture) (s : State) : Tame s (startCapture k s) := setSvc_tame rfl

theorem startRelease_tame (i : Nat) (id : Identity) (s : State) : Tame s (startRelease i id s) := setSvc_tame rfl

theorem answerCommissionBegin_tame (code : Byte) (set : CircuitSet) (s : State) :
    Tame s (answerCommissionBegin code set s) := by
  unfold answerCommissionBegin
  split
  · exact refuse_tame _ _ s
  · exact (send_tame _ s).trans (startCapture_tame _ _)

theorem startServiceWrite_tame (op : ServiceOp) (target : ServiceTarget) (i : Nat) (s : State) :
    Tame s (startServiceWrite op target i s) := by
  have hwriting : Tame s (setSvc { s.svc with
      state := .writing, captureTimer := none, release := none
      write := some { op := op, target := target, index := i, block := blockOfIndex i, begun := false,
                      aborted := false } } s) := setSvc_tame rfl
  exact hwriting.trans (askWrite_tame _ _)

theorem answerCommissionConfirm_tame (echo : Byte) (id : Identity) (s : State) :
    Tame s (answerCommissionConfirm echo id s) := by
  unfold answerCommissionConfirm
  split
  · exact refuse_tame _ _ s
  · split
    · exact (send_tame _ s).trans (endCapture_tame _ _)
    · split
      · exact (send_tame _ s).trans (endCapture_tame _ _)
      · exact (send_tame _ s).trans ((setLdt_tame (editEntry_length _ _ _)).trans (startServiceWrite_tame _ _ _ _))

theorem answerReleaseBegin_tame (i : Nat) (s : State) : Tame s (answerReleaseBegin i s) := by
  unfold answerReleaseBegin
  split
  · exact refuse_tame _ _ s
  · exact (send_tame _ s).trans (startRelease_tame _ _ _)

theorem applyRelease_tame (i : Nat) (s : State) : Tame s (applyRelease i s) := by
  have hopen : Tame s (setLdt (editEntry i releaseEntry s.ldt) s) := setLdt_tame (editEntry_length _ _ _)
  unfold applyRelease
  simp only
  split
  · exact hopen.trans (removeLamps_tame _ _ _)
  · exact hopen

theorem answerReleaseConfirm_tame (i : Nat) (id : Identity) (s : State) : Tame s (answerReleaseConfirm i id s) := by
  unfold answerReleaseConfirm
  split
  · exact refuse_tame _ _ s
  · split
    · exact (send_tame _ s).trans (endRelease_tame _ _)
    · exact (send_tame _ s).trans ((applyRelease_tame _ _).trans (startServiceWrite_tame _ _ _ _))

theorem answerClearFaults_tame (s : State) : Tame s (answerClearFaults s) :=
  (send_tame _ s).trans (clearFaults_tame _)

/-! ### The two tells -/

theorem setStale_tame (b : Bool) (s : State) : Tame s (setStale b s) := Tame.of_same

theorem acceptWord_tame (new : FunctionWord) (s : State) : Tame s (acceptWord new s) := by
  have hword : Tame s { s with hlc := { s.hlc with
      word := new, previous := s.hlc.word, lastTell := s.now, firstTell := false } } := Tame.of_same
  exact hword.trans (setStale_tame false _)

theorem senseTell_tame (ended : Bool) (old new : FunctionWord) (s : State) : Tame s (senseTell ended old new s) :=
  setSfe_tame _ s

theorem watchTell_serves (ended : Bool) (old new : FunctionWord) (s : State) :
    Serves s (watchTell ended old new s) := by
  unfold watchTell
  simp only
  split
  · exact evaluateWatches_serves s
  · have hloaded : Serves s (edgeLoads old new (evaluateWatches s)) :=
      (evaluateWatches_serves s).trans (setWatches_serves _ _)
    refine hloaded.trans ?_
    split
    · exact (Tame.refl _).serves
    · exact (onFaults_applyBatch_tame _ _ _).serves

theorem chainTell_tame (first : Bool) (old new : FunctionWord) (s : State) : Tame s (chainTell first old new s) := by
  unfold chainTell
  split
  · exact coupledEdge_tame s
  · exact .refl s

theorem answerFunction_serves (new : FunctionWord) (s : State) : Serves s (answerFunction new s) :=
  (((scanFirst_tame _ _ _ s).trans (acceptWord_tame _ _)).trans (senseTell_tame _ _ _ _)).serves.trans
    ((watchTell_serves _ _ _ _).trans (chainTell_tame _ _ _ _).serves)

theorem ackRecord_marks (id : Nat) (f : Flt) : recordMarks (ackRecord id f) = recordMarks f := by
  have one : ∀ r : FaultRecord, ((if r.entryId = some id then { r with acked := true } else r).key,
      (if r.entryId = some id then { r with acked := true } else r).state,
      (if r.entryId = some id then { r with acked := true } else r).kind) = (r.key, r.state, r.kind) := by
    intro r
    split <;> rfl
  simp only [recordMarks, ackRecord, List.map_map, Function.comp_def, Option.map_map, one]

/-- A list that has lost entries or only changed some. -/
theorem setList_tame {l : List DisplayEntry} {s : State} (h : l.length ≤ s.dsr.list.length) : Tame s (setList l s) :=
  ⟨.of_same rfl rfl rfl (fun h8 => h.trans h8) rfl rfl, setList_power l s⟩

theorem raiseStale_tame (s : State) : Tame s (raiseStale s) :=
  ⟨.of_same rfl rfl rfl id rfl rfl, .of_same rfl rfl rfl rfl rfl rfl rfl rfl⟩

theorem acknowledge_tame (s : State) (t : Triple) : Tame s (acknowledge t s) := by
  unfold acknowledge
  split
  · split
    · exact raiseStale_tame s
    · split
      · split
        · exact ⟨.of_marks (ackRecord_marks _ _) rfl rfl rfl rfl (by simp) rfl rfl,
            .of_same rfl rfl rfl rfl rfl rfl rfl rfl⟩
        · exact setList_tame (List.length_filter_le _ _)
        · exact .refl s
      · exact raiseStale_tame s
  · exact .refl s

theorem setMirror_tame (m : MirrorState) (s : State) : Tame s (setMirror m s) := Tame.of_same

/-- The reconcile timer stopped. -/
theorem stopReconcile_tame (s : State) : Tame s { s with dsr := { s.dsr with reconcile := none } } :=
  ⟨.of_same rfl rfl rfl id rfl rfl, ⟨rfl, rfl, rfl, rfl, rfl, id, fun _ _ => rfl, fun _ => id⟩⟩

theorem settleMirror_serves (good : Bool) (s : State) : Serves s (settleMirror good s) := by
  unfold settleMirror
  split
  · exact ((stopReconcile_tame s).trans (setMirror_tame _ _)).serves
  · split
    · exact sendSnapshot_serves s
    · exact (Tame.refl s).serves

theorem takeReport_serves (r : MirrorContent) (s : State) : Serves s (takeReport r s) := by
  have hcontent : Tame s { s with dsr := { s.dsr with content := r } } := Tame.of_same
  exact hcontent.serves.trans ((settleMirror_serves _ _).trans
    ((Tame.foldl (fun s t => acknowledge_tame s t) r.triples _).trans (reevaluate_tame _ _)).serves)

end Sys2Proof.Machine
end


/-! ### The course of a host record keeps the laws -/

section
/-!
PROOFS. A valid frame's arrival, the taking of the frame that waits, and the answer: the tables keep their laws, and after
each event the power state excludes what it must (R167, R188, R190, R195).
-/
namespace Sys2Proof.Machine

/-! ### A valid frame arrives (R166, R167) -/

/-- Out of standby entries in ACTIVE, the law asks only that no frame is in processing once a RESTART is accepted. -/
theorem PowerLaw.of_active {s : State} (ha : s.pwc.power = .active) (he : s.pwc.standbyEntry = false)
    (hr : s.pwc.restartPending = true → s.hlc.processing = none) : PowerLaw s := by
  refine ⟨fun _ => ha, ?_, hr, fun h => absurd ha h⟩
  rintro (h | h)
  · rw [he] at h; cases h
  · rw [ha] at h; cases h

/-- No entry outside ACTIVE. -/
theorem PowerLaw.entry_false {s : State} (h : PowerLaw s) (hp : s.pwc.power ≠ .active) :
    s.pwc.standbyEntry = false := by
  cases he : s.pwc.standbyEntry with
  | false => rfl
  | true => exact absurd (h.1 he) hp

theorem takeWaiting_tables (s : State) : KeepsTables s (takeWaiting s) := by
  unfold takeWaiting
  split
  · exact ⟨id, id, fun _ => id, id⟩
  · exact .refl s

/-- Where no frame may be in processing none waits, so none is taken (R146, R186, R188). -/
theorem takeWaiting_law {s : State} (h : PowerLaw s) : PowerLaw (takeWaiting s) := by
  by_cases hb : s.hlc.buffer = none
  · rw [takeWaiting_empty s hb]; exact h
  obtain ⟨hentry, hparked, hrestart, houtside⟩ := h
  unfold takeWaiting
  split
  · rename_i htake
    simp only [takesFrames, Bool.and_eq_true, Bool.not_eq_true', Option.isNone_iff_eq_none] at htake
    obtain ⟨hnone, -, hfree⟩ := htake
    refine ⟨hentry, fun hp => absurd (hparked hp).2.1 hb, fun hr => ?_, fun hp => ?_⟩
    · simp only at hr; rw [hfree] at hr; cases hr
    · obtain ⟨hm, hd, hu, hw⟩ := houtside hp
      refine ⟨hm, hd, hu, ?_⟩
      simpa [waking, hnone] using hw
  · exact ⟨hentry, hparked, hrestart, houtside⟩

theorem huntAgain_tame (s : State) : Tame s (huntAgain s) := Tame.of_same

theorem restartSilence_tame (s : State) : Tame s (restartSilence s) := Tame.of_same

theorem setSilent_tame (b : Bool) (s : State) : Tame s { s with hlc := { s.hlc with silent := b } } := Tame.of_same

theorem heard_tame (s : State) : Tame s (heard s) := by
  unfold heard
  simp only
  split
  · exact (setSilent_tame false s).trans ((markIf_tame _ _ _).trans (restartSilence_tame _))
  · exact (setSilent_tame false s).trans (markIf_tame _ _ _)

theorem cancelEntry_tables (s : State) : KeepsTables s (cancelEntry s) :=
  (setQueue_tame _ s).tables.trans (setStandbyEntry_tables false _)

theorem becomeStale_tame (s : State) : Tame s (becomeStale s) := by
  exact (setSfe_tame { s.sfe with circuits := s.sfe.circuits.mapAt fun _ x => staleCircuit x } s).trans
    ((setStale_tame true _).trans (disarmWatches_tame _))

theorem testTellAge_tame (s : State) : Tame s (testTellAge s) := by
  unfold testTellAge
  split
  · exact becomeStale_tame s
  · exact .refl s

theorem unparkDisplay_tame (s : State) : Tame s (unparkDisplay s) := setList_tame (by simp)

theorem unparkChain_tame (s : State) : Tame s (unparkChain s) := setClc_narrow_tame rfl (.inr rfl) (.refl _)

theorem startAging_tame (s : State) : Tame s (startAging s) := setPwc_tame rfl rfl rfl

/-- What the wake does behind the change of the power state is tame in ACTIVE. -/
theorem wake_serves (s : State) : Serves (setPower .active s) (wake s) := by
  have hsense : Serves (setPower .active s) (unparkSense (testTellAge (setPower .active s))) :=
    ((testTellAge_tame _).trans (setSfe_tame _ _)).serves
  have hrest : ∀ u : State, Tame u (startAging (unparkChain (unparkDisplay (restartSilence u)))) := fun u =>
    (restartSilence_tame u).trans ((unparkDisplay_tame _).trans ((unparkChain_tame _).trans (startAging_tame _)))
  unfold wake
  simp only
  split
  · exact hsense.trans (hrest _).serves
  · exact hsense.trans ((evaluateWatches_serves _).trans (hrest _).serves)

theorem setPower_tables (p : PowerState) (s : State) : KeepsTables s (setPower p s) := ⟨id, id, fun _ => id, id⟩

theorem wake_tables (s : State) : KeepsTables s (wake s) :=
  (setPower_tables .active s).trans (wake_serves s).tables

theorem frameArrives_tables (s : State) : KeepsTables s (frameArrives s) := by
  unfold frameArrives
  split
  · exact wake_tables s
  · split
    · exact cancelEntry_tables s
    · exact .refl s

theorem bufferFrame_tables (f : HostFrame) (c w : Bool) (s : State) : KeepsTables s (bufferFrame f c w s) := by
  unfold bufferFrame
  split <;> exact ⟨id, id, fun _ => id, id⟩

theorem frameCompletes_tables (f : HostFrame) (s : State) : KeepsTables s (frameCompletes f s) :=
  (huntAgain_tame s).tables.trans ((frameArrives_tables _).trans ((heard_tame _).tables.trans
    ((bufferFrame_tables _ _ _ _).trans (takeWaiting_tables _))))

/-- The buffer's write leaves all but the buffer and the OVERRUN counter. -/
theorem bufferFrame_eq (f : HostFrame) (c w : Bool) (s : State) :
    bufferFrame f c w s =
      { s with hlc := { s.hlc with buffer := (bufferFrame f c w s).hlc.buffer,
                                   overrun := (bufferFrame f c w s).hlc.overrun } } := by
  unfold bufferFrame
  split <;> rfl

/-- A frame that wakes no part leaves no mark of a wake. -/
theorem bufferFrame_not_woke (f : HostFrame) (c : Bool) (s : State) :
    (bufferFrame f c false s).hlc.buffer.any (·.woke) = s.hlc.buffer.any (·.woke) := by
  unfold bufferFrame
  split <;> simp [*]

/-- Out of standby and entries the frame only joins the buffer. -/
theorem bufferFrame_law {f : HostFrame} {c : Bool} {s : State} (h : PowerLaw s)
    (he : s.pwc.standbyEntry = false) (hp : s.pwc.power ≠ .standby) : PowerLaw (bufferFrame f c false s) := by
  obtain ⟨hentry, -, hrestart, houtside⟩ := h
  have hw := bufferFrame_not_woke f c s
  rw [bufferFrame_eq]
  refine ⟨hentry, ?_, hrestart, fun hq => ?_⟩
  · rintro (h | h)
    · exact absurd h (by simp [he])
    · exact absurd h hp
  · obtain ⟨hm, hd, hu, hwaking⟩ := houtside hq
    refine ⟨hm, hd, hu, ?_⟩
    simp only [waking] at hwaking ⊢
    rw [hw]
    exact hwaking

/-- After a wake or a cancelled entry the part is in ACTIVE and in no entry. -/
theorem bufferFrame_law_of_active {f : HostFrame} {c w : Bool} {s : State} (ha : s.pwc.power = .active)
    (he : s.pwc.standbyEntry = false) (hr : s.pwc.restartPending = true → s.hlc.processing = none) :
    PowerLaw (bufferFrame f c w s) := by
  rw [bufferFrame_eq]
  exact .of_active ha he hr

theorem frameCompletes_law (f : HostFrame) {s : State} (h : PowerLaw s) : PowerLaw (frameCompletes f s) := by
  have hx : PowerLaw (huntAgain s) := (huntAgain_tame s).power.law h
  have hpower : (huntAgain s).pwc = s.pwc := rfl
  refine takeWaiting_law ?_
  generalize hu : huntAgain s = u at hx hpower
  by_cases hs : s.pwc.power = .standby
  · have hk := (heard_tame (wake u)).power
    have hw := (wake_serves u).power rfl
    have he : u.pwc.standbyEntry = false := hx.entry_false (by rw [hpower, hs]; simp)
    rw [frameArrives, if_pos (hpower ▸ hs)]
    refine bufferFrame_law_of_active (hk.power.trans hw.power) (hk.entry.trans (hw.entry.trans he)) ?_
    rw [hk.restart, hw.restart, hk.processing, hw.processing]
    exact hx.2.2.1
  · rw [frameArrives, if_neg (hpower ▸ hs)]
    cases he : s.pwc.standbyEntry with
    | true =>
      have heu : u.pwc.standbyEntry = true := hpower ▸ he
      have hk := (heard_tame (cancelEntry u)).power
      rw [if_pos heu]
      refine bufferFrame_law_of_active (hk.power.trans (hx.1 heu)) hk.entry ?_
      rw [hk.processing]
      exact fun _ => (hx.2.1 (.inl heu)).1
    | false =>
      have heu : u.pwc.standbyEntry = false := hpower ▸ he
      have hk := (heard_tame u).power
      have hd : decide (s.pwc.power = .standby) = false := by simp [hs]
      rw [heu, if_neg Bool.false_ne_true, hd]
      exact bufferFrame_law (hk.law hx) (hk.entry.trans heu) (by rw [hk.power, hpower]; exact hs)

/-! ### The answer (R154, R168) -/

theorem answer_tables {w : Waiting} {owner : State → State} (ho : ∀ u, KeepsTables u (owner u)) (s : State) :
    KeepsTables s (answer w owner s) := by
  unfold answer
  split
  · exact (refuse_tame _ _ s).tables
  · split
    · exact ho s
    · exact (refuse_tame _ _ s).tables
    · exact ((refuse_tame _ _ s).trans (breakOperation_tame _)).tables

theorem answer_frames {w : Waiting} {owner : State → State} {s : State} (ho : KeepsFrames s (owner s)) :
    KeepsFrames s (answer w owner s) := by
  unfold answer
  split
  · exact (refuse_tame _ _ s).power.frames
  · split
    · exact ho
    · exact (refuse_tame _ _ s).power.frames
    · exact ((refuse_tame _ _ s).trans (breakOperation_tame _)).power.frames

theorem kind_of_linkRefusal_start {w : Waiting} (h : linkRefusal w .start = none) :
    w.frame.kind = 0x01 ∨ w.frame.kind = 0x02 := by
  unfold linkRefusal at h
  by_contra hne
  rw [not_or] at hne
  have hlast : (PowerState.start = .start && w.frame.kind != 0x01 && w.frame.kind != 0x02) = true := by
    simpa using hne
  rw [if_pos hlast] at h
  split at h
  · cases h
  · split at h
    · cases h
    · split at h <;> cases h

/-- In START every record but IDENTIFY and STATUS is refused (R168). -/
theorem answer_start_tame {w : Waiting} {owner : State → State} {s : State} (hp : s.pwc.power = .start)
    (ho : w.frame.kind = 0x01 ∨ w.frame.kind = 0x02 → Tame s (owner s)) : Tame s (answer w owner s) := by
  unfold answer
  split
  · exact refuse_tame _ _ s
  · rename_i hn
    have hk := kind_of_linkRefusal_start (hp ▸ hn)
    split
    · exact ho hk
    · exact refuse_tame _ _ s
    · exact (refuse_tame _ _ s).trans (breakOperation_tame _)

/-- The work of a record's owner, as its frame is processed: the tables' laws whatever the power state, the frames at
hand in ACTIVE, and in START the work of IDENTIFY and STATUS. -/
structure Owner (kind : Byte) (owner : State → State) : Prop where
  tables : ∀ s, KeepsTables s (owner s)
  frames : ∀ s, s.pwc.power = .active → KeepsFrames s (owner s)
  start : kind = 0x01 ∨ kind = 0x02 → ∀ s, Tame s (owner s)

theorem Owner.of_tame {kind : Byte} {owner : State → State} (h : ∀ s, Tame s (owner s)) : Owner kind owner :=
  ⟨fun s => (h s).tables, fun s _ => (h s).power.frames, fun _ => h⟩

theorem Owner.of_serves {kind : Byte} {owner : State → State} (h : ∀ s, Serves s (owner s))
    (h1 : kind ≠ 0x01) (h2 : kind ≠ 0x02) : Owner kind owner :=
  ⟨fun s => (h s).tables, fun s ha => ((h s).power ha).frames, fun hk => absurd hk (not_or.2 ⟨h1, h2⟩)⟩

theorem Owner.of_frames {kind : Byte} {owner : State → State} (h : ∀ s, KeepsTables s (owner s))
    (hf : ∀ s, KeepsFrames s (owner s)) (h1 : kind ≠ 0x01) (h2 : kind ≠ 0x02) : Owner kind owner :=
  ⟨h, fun s _ => hf s, fun hk => absurd hk (not_or.2 ⟨h1, h2⟩)⟩

/-! ### The end of a processing (R167, R178, R188, R195) -/

theorem endProcessing_tables (s : State) : KeepsTables s (endProcessing s) := ⟨id, id, fun _ => id, id⟩

theorem waitingCancels_tables (s : State) : KeepsTables s (waitingCancels s) := by
  unfold waitingCancels
  split
  · exact (cancelEntry_tables s).trans ⟨id, id, fun _ => id, id⟩
  · exact .refl s

theorem leaveStandby_serves (s : State) : Serves s (leaveStandby s) :=
  (sendSnapshot_serves s).trans
    (((refreshLines_tame _).trans (sendStatusChange_tame _)).trans (triggerCensus_tame _)).serves

/-- In ACTIVE, with none in processing, the waiting frame cancels an entry, so that none waits in one. -/
theorem waitingCancels_law {s : State} (ha : s.pwc.power = .active) (hn : s.hlc.processing = none)
    (hm : s.pwc.standbyEntry = true → s.svc.mode = false) : PowerLaw (waitingCancels s) := by
  have hpower : (waitingCancels s).pwc.power = .active := by
    unfold waitingCancels
    split <;> exact ha
  have hkept : (waitingCancels s).pwc.standbyEntry = true → s.pwc.standbyEntry = true := by
    unfold waitingCancels
    split
    · rintro ⟨⟩
    · exact id
  have hproc : (waitingCancels s).hlc.processing = none := by rw [waitingCancels_eq]; exact hn
  refine ⟨fun _ => hpower, ?_, fun _ => hproc, fun hq => absurd hpower hq⟩
  rintro (he | hp)
  · refine ⟨hproc, waitingCancels_entry s he, ?_⟩
    rw [waitingCancels_eq]
    exact hm (hkept he)
  · rw [hpower] at hp; cases hp

theorem process_tables {w : Waiting} {owner : State → State} (ho : ∀ u, KeepsTables u (owner u)) (s : State) :
    KeepsTables s (process w owner s) := by
  have hend : ∀ u, KeepsTables u (finish (takeWaiting (waitingCancels u))) := fun u =>
    (waitingCancels_tables u).trans ((takeWaiting_tables _).trans (finish_tame _).tables)
  unfold process
  simp only
  split
  · exact (answer_tables ho s).trans ((endProcessing_tables _).trans ((leaveStandby_serves _).tables.trans (hend _)))
  · exact (endProcessing_tables s).trans ((answer_tables ho _).trans (hend _))

/-- A frame in processing is processed in ACTIVE or in START, outside entries, with no RESTART accepted (R146, R186). -/
theorem PowerLaw.of_processing {s : State} {w : Waiting} (h : PowerLaw s) (hw : s.hlc.processing = some w) :
    s.pwc.standbyEntry = false ∧ s.pwc.power ≠ .standby ∧ s.pwc.restartPending = false ∧
      (s.pwc.power = .start → w.woke = false) := by
  obtain ⟨-, hparked, hrestart, houtside⟩ := h
  have hne : s.hlc.processing ≠ none := by rw [hw]; simp
  refine ⟨?_, fun hp => hne (hparked (.inr hp)).1, ?_, fun hp => ?_⟩
  · by_contra he
    exact hne (hparked (.inl (by simpa using he))).1
  · by_contra hr
    exact hne (hrestart (by simpa using hr))
  · have hwk := (houtside (by rw [hp]; simp)).2.2.2
    simp only [waking, hw, Option.any_some, Bool.or_eq_false_iff] at hwk
    exact hwk.1

theorem process_law {w : Waiting} {owner : State → State} {s : State} (ho : Owner w.frame.kind owner)
    (h : PowerLaw s) (hw : s.hlc.processing = some w) : PowerLaw (process w owner s) := by
  obtain ⟨he, hp, hr, hwoke⟩ := h.of_processing hw
  unfold process
  refine (finish_tame _).power.law (takeWaiting_law ?_)
  by_cases ha : s.pwc.power = .active
  · split
    · have hf := answer_frames (w := w) (ho.frames s ha)
      have hk := (leaveStandby_serves (endProcessing (answer w owner s))).power (hf.power.trans ha)
      refine waitingCancels_law (hk.power.trans (hf.power.trans ha)) hk.processing ?_
      rw [hk.entry]
      exact fun h1 => hk.mode (hf.entry he h1)
    · have hf := answer_frames (w := w) (ho.frames (endProcessing s) ha)
      exact waitingCancels_law (hf.power.trans ha) hf.processing (hf.entry he)
  · have hs : s.pwc.power = .start := by
      cases hq : s.pwc.power <;> simp_all
    have hk := (answer_start_tame (w := w) (owner := owner) (s := endProcessing s) hs
      fun hkind => ho.start hkind _).power
    rw [if_neg (by simp [hwoke hs])]
    have hend : PowerLaw (endProcessing s) := by
      obtain ⟨hentry, hparked, hrestart, houtside⟩ := h
      refine ⟨hentry, fun hq => ⟨rfl, (hparked hq).2⟩, fun _ => rfl, fun hq => ?_⟩
      obtain ⟨hm, hd, hu, hwaking⟩ := houtside hq
      refine ⟨hm, hd, hu, ?_⟩
      simp only [waking, Bool.or_eq_false_iff] at hwaking
      simp [waking, endProcessing, hwaking.2]
    have hnone : waitingCancels (answer w owner (endProcessing s)) = answer w owner (endProcessing s) := by
      have : (answer w owner (endProcessing s)).pwc.standbyEntry = false := hk.entry.trans he
      simp [waitingCancels, this]
    rw [hnone]
    exact hk.law hend

/-! ### The host record as a whole -/

theorem hostRecord_lawful {f : HostFrame} {owner : State → State} (ho : Owner f.kind owner) (s : State) :
    Lawful s (hostRecord f owner s) := by
  have harrive : Lawful s (finish (frameCompletes f s)) :=
    ⟨(frameCompletes_tables f s).trans (finish_tame _).tables,
      fun h => (finish_tame _).power.law (frameCompletes_law f h), fun _ => finish_lines _⟩
  have hrest : ∀ u, Lawful u (match u.hlc.processing with
      | some w => if w.frame = f then process w owner u else u
      | none => u) := by
    intro u
    split
    · rename_i w hw
      split
      · rename_i hf
        exact ⟨process_tables ho.tables u, fun h => process_law (hf ▸ ho) h hw, fun _ => finish_lines _⟩
      · exact ⟨.refl u, id, id⟩
    · exact ⟨.refl u, id, id⟩
  have hfirst : Lawful s (if isProcessed f s then s else finish (frameCompletes f s)) := by
    split
    · exact ⟨.refl s, id, id⟩
    · exact harrive
  unfold hostRecord
  split
  · exact ⟨.refl s, id, id⟩
  · exact hfirst.trans (hrest _)

end Sys2Proof.Machine
end


/-! ### Every step keeps the laws: O5 to O8 -/

section
/-!
PROOFS. Each command keeps the laws, and with them each step: the obligations O5 to O8.
-/
namespace Sys2Proof.Machine

/-! ### Events -/

theorem event_lawful {work : State → State} {s : State} (ht : KeepsTables s (work s))
    (hp : PowerLaw s → PowerLaw (work s)) : Lawful s (event work s) := by
  unfold event
  split
  · exact ⟨.refl s, id, id⟩
  · exact ⟨ht.trans (finish_tame _).tables, fun h => (finish_tame _).power.law (hp h), fun _ => finish_lines _⟩

theorem event_tame {work : State → State} {s : State} (h : Tame s (work s)) : Lawful s (event work s) :=
  event_lawful h.tables h.power.law

/-- A change no law looks at, outside events. -/
theorem Tame.lawful {s t : State} (h : Tame s t) (hp : t.pwc = s.pwc) (hd : t.dsr = s.dsr) (hf : t.flt = s.flt)
    (hm : t.params = s.params) (hs : t.hlc.silent = s.hlc.silent) : Lawful s t :=
  ⟨h.tables, h.power.law, fun hl => LinesLaw_of_same hl hp hd hf hm hs⟩

/-! ### Resets (R186) -/

theorem doReset_tables (c : ResetCause) (b : Bool) (s : State) : KeepsTables s (doReset c b s) := by
  refine ⟨?_, fun _ => .of_idle ?_ rfl, fun _ _ => ?_, fun _ => ?_⟩
  · rintro ⟨⟨-, -, -, hr, ha, hb⟩, -⟩
    exact ⟨⟨by simp [doReset, Ldt.initial], by simp [doReset, Flt.initial], rfl, hr, ha, hb⟩,
      by simp [ListLaw, doReset, Dsr.initial]⟩
  · simp [doReset, Clc.initial, TableLaw]
  · simp [KeysLaw, doReset, Flt.initial]
  · intro c _
    simp [doReset, Flt.initial]

theorem doReset_power (c : ResetCause) (b : Bool) (s : State) : PowerLaw (doReset c b s) := by
  refine ⟨?_, ?_, ?_, fun _ => ⟨rfl, rfl, fun c => ?_, rfl⟩⟩
  · rintro ⟨⟩
  · rintro (h | h) <;> cases h
  · rintro ⟨⟩
  · simp [doReset, Jge.initial]

theorem doReset_lawful (c : ResetCause) (b : Bool) (s : State) : Lawful s (doReset c b s) :=
  ⟨doReset_tables c b s, fun _ => doReset_power c b s, fun _ => doReset_lines c b s⟩

/-! ### The store (R182, R184, R187, R189) -/

/-- Working memory as the load fills it (R182). -/
def storeTaken (s : State) : State :=
  { s with
    params := if s.stc.good .config then s.stc.config.content else Params.default
    jge := { s.jge with rules := if s.stc.good .rules then s.stc.rules.content else defaultRules }
    ldt := { s.ldt with entries :=
      ((if s.stc.good .loadsA then s.stc.loadsA.content else List.replicate 12 none) ++
        (if s.stc.good .loadsB then s.stc.loadsB.content else List.replicate 16 none)).map fun o => o.map loadEntry } }

theorem loadStore_eq (s : State) : loadStore s =
    setStoreFault .loadsB (!s.stc.good .loadsB) (setStoreFault .loadsA (!s.stc.good .loadsA)
      (setStoreFault .rules (!s.stc.good .rules) (setStoreFault .config (!s.stc.good .config) (storeTaken s)))) := rfl

theorem defaultRules_length : defaultRules.length = 32 := by simp [defaultRules]

theorem storeTaken_same (s : State) : (storeTaken s).clc = s.clc ∧ (storeTaken s).flt = s.flt ∧
    (storeTaken s).stc = s.stc ∧ (storeTaken s).dsr = s.dsr := by
  cases s
  exact ⟨rfl, rfl, rfl, rfl⟩

theorem storeTaken_entries {s : State} (ha : s.stc.loadsA.content.length = 12)
    (hb : s.stc.loadsB.content.length = 16) : (storeTaken s).ldt.entries.length = 28 := by
  simp only [storeTaken, List.length_map, List.length_append]
  split <;> split <;> simp [ha, hb]

theorem storeTaken_rules {s : State} (hr : s.stc.rules.content.length = 32) :
    (storeTaken s).jge.rules.length = 32 := by
  simp only [storeTaken]
  split
  · exact hr
  · exact defaultRules_length

/-- The blocks and their defaults have as many places as working memory. -/
theorem storeTaken_tables (s : State) : KeepsTables s (storeTaken s) := by
  obtain ⟨hclc, hflt, hstc, hdsr⟩ := storeTaken_same s
  constructor
  · rintro ⟨⟨-, hf, -, hr, ha, hb⟩, hl⟩
    refine ⟨⟨storeTaken_entries ha hb, ?_, storeTaken_rules hr, ?_⟩, ?_⟩
    · rw [hflt]; exact hf
    · rw [hstc]; exact ⟨hr, ha, hb⟩
    · unfold ListLaw; rw [hdsr]; exact hl
  · exact ChainLaw.congr hclc
  · rw [hflt]; exact fun _ => id
  · rw [hflt]; exact id

theorem loadStore_tables (s : State) : KeepsTables s (loadStore s) := by
  rw [loadStore_eq]
  exact (storeTaken_tables s).trans ((setStoreFault_tame _ _ _).trans ((setStoreFault_tame _ _ _).trans
    ((setStoreFault_tame _ _ _).trans (setStoreFault_tame _ _ _)))).tables

theorem completeLoad_tail_tame (s : State) :
    Tame (setPower .active (loadStore s)) (completeLoad s) := by
  have hsent : ∀ u : State, Tame u (if u.hlc.changes.isEmpty then u else sendStatusChange u) := by
    intro u
    split
    · exact .refl u
    · exact sendStatusChange_tame u
  exact (send_tame _ _).trans ((hsent _).trans ((restartSilence_tame _).trans
    ((startAging_tame _).trans (triggerCensus_tame _))))

theorem loadStore_frames (s : State) :
    (loadStore s).pwc = s.pwc ∧ (loadStore s).hlc.processing = s.hlc.processing := by
  simp [loadStore]

theorem completeLoad_law {s : State} (hs : s.pwc.power = .start) (h : PowerLaw s) : PowerLaw (completeLoad s) := by
  obtain ⟨hpwc, hproc⟩ := loadStore_frames s
  refine (completeLoad_tail_tame s).power.law (.of_active rfl ?_ ?_)
  · simp only [setPower_pwc, hpwc]
    exact h.entry_false (by rw [hs]; simp)
  · simp only [setPower_pwc, setPower_hlc, hpwc, hproc]
    exact h.2.2.1

theorem parkSense_tame (s : State) : Tame s (parkSense s) := setSfe_tame _ s

theorem parkChain_tame (s : State) : Tame s (parkChain s) := by
  unfold parkChain
  simp only
  split
  · exact setClc_narrow_tame rfl (.inr rfl) (.refl _)
  · have hcut : ∀ k : Clc, (cutCycle k).table = k.table ∧ (cutCycle k).census = k.census ∧
        openAssigns (cutCycle k) = openAssigns k := by
      intro k
      unfold cutCycle
      split <;> exact ⟨rfl, rfl, rfl⟩
    obtain ⟨h1, h2, h3⟩ := hcut s.clc
    refine setClc_narrow_tame (by rw [h1]) (.inr h2) ?_
    have : ∀ (k : Clc) (n : Nat), openAssigns { k with standbyCycle := n } = openAssigns k := fun _ _ => rfl
    rw [this, h3]

theorem parkDisplay_tame (s : State) : Tame s (parkDisplay s) :=
  ⟨.of_same rfl rfl rfl (by simp [parkDisplay]) rfl rfl, ⟨rfl, rfl, rfl, rfl, rfl, id, fun _ _ => rfl, fun _ => id⟩⟩

theorem stopAging_tame (s : State) : Tame s (stopAging s) := setPwc_tame rfl rfl rfl

/-- The marks of the end of an entry, behind which its work is done. -/
def parked (s : State) : State := setStandbyEntry false (setPower .standby (abortCensus s))

theorem stopLink_tame (s : State) :
    Tame s { s with hlc := { s.hlc with silence := none }, pwc := { s.pwc with lowScans := 0 } } :=
  ⟨⟨id, id, fun _ => id, id⟩, .of_same rfl rfl rfl rfl rfl rfl rfl rfl⟩

theorem enterStandby_tame (s : State) : Tame (parked s) (enterStandby s) :=
  (parkSense_tame _).trans ((disarmWatches_tame _).trans ((parkChain_tame _).trans
    ((parkDisplay_tame _).trans ((stopLink_tame _).trans (stopAging_tame _)))))

theorem enterStandby_tables (s : State) : KeepsTables s (enterStandby s) :=
  (abortCensus_tame s).tables.trans ((setPower_tables .standby _).trans
    ((setStandbyEntry_tables false _).trans (enterStandby_tame s).tables))

theorem enterStandby_reconcile (s : State) : (enterStandby s).dsr.reconcile = none := rfl

theorem enterStandby_unarmed (s : State) : Unarmed (enterStandby s) := by
  have hjge : (enterStandby s).jge = (disarmWatches (parkSense (parked s))).jge := rfl
  unfold Unarmed
  rw [hjge]
  intro c
  simp [disarmWatches, setWatches, disarmWatch]

/-- The end of an entry in which no frame was at hand and service mode was off (R189). -/
theorem enterStandby_law {s : State} (h : PowerLaw s) (he : s.pwc.standbyEntry = true) :
    PowerLaw (enterStandby s) := by
  obtain ⟨hproc, hbuf, hmode⟩ := h.2.1 (.inl he)
  have hk := (enterStandby_tame s).power
  have ha := (abortCensus_tame s).power
  have hp' : (enterStandby s).hlc.processing = none := hk.processing.trans (ha.processing.trans hproc)
  have hb' : (enterStandby s).hlc.buffer = none := hk.buffer.trans (ha.buffer.trans hbuf)
  have hm' : (enterStandby s).svc.mode = false := hk.mode (ha.mode hmode)
  refine ⟨fun hq => ?_, fun _ => ⟨hp', hb', hm'⟩, fun _ => hp', fun _ =>
    ⟨hm', enterStandby_reconcile s, enterStandby_unarmed s, by simp [waking, hp', hb']⟩⟩
  rw [hk.entry] at hq
  cases hq

theorem closeCopy_sized {b : StoreBlock} {good : Bool} {s : State} (h : Sized s) :
    Sized { s with stc := { closeCopy b good s.stc with writing := none } } := by
  have hkeep : ∀ {α : Type} (bytes : α → List Byte) (c : Copy α), (c.ended bytes good).content = c.content := by
    intro α bytes c
    unfold Copy.ended
    split <;> rfl
  obtain ⟨⟨hl, hf, hj, hr, ha, hb⟩, hlist⟩ := h
  refine ⟨⟨hl, hf, hj, ?_, ?_, ?_⟩, hlist⟩ <;> cases b <;> simp only [closeCopy, hkeep] <;> assumption

theorem reportWrite_tame (b : StoreBlock) (good : Bool) (s : State) : Tame s (reportWrite b good s) := by
  have hend : ∀ w, Tame s (endServiceWrite w good s) := by
    intro w
    have hidle : Tame s { s with svc := { s.svc with state := .idle, write := none } } := Tame.of_same
    have hstuck : Tame s (if good then { s with svc := { s.svc with state := .idle, write := none } }
        else setSticky .store { s with svc := { s.svc with state := .idle, write := none } }) := by
      split
      · exact hidle
      · exact hidle.trans (setSticky_tame _ _)
    exact hstuck.trans (send_tame _ _)
  unfold reportWrite
  split
  · split
    · exact hend _
    · exact .refl s
  · exact .refl s

/-- The work of a write's end but for an entry that waits for it. -/
def writeClosed (b : StoreBlock) (good : Bool) (s : State) : State :=
  nextWrite (reportWrite b good
    (setStoreFault b (!good) { s with stc := { closeCopy b good s.stc with writing := none } }))

theorem writeEnded_eq (b : StoreBlock) (good : Bool) (s : State) : writeEnded b good s =
    if (writeClosed b good s).pwc.standbyEntry && entryDone (writeClosed b good s) then
      enterStandby (writeClosed b good s) else writeClosed b good s := rfl

theorem writeClosed_tame (b : StoreBlock) (good : Bool) (s : State) : Tame s (writeClosed b good s) := by
  have hclosed : Tame s { s with stc := { closeCopy b good s.stc with writing := none } } :=
    ⟨⟨closeCopy_sized, id, fun _ => id, id⟩, .of_same rfl rfl rfl rfl rfl rfl rfl rfl⟩
  exact hclosed.trans ((setStoreFault_tame _ _ _).trans ((reportWrite_tame _ _ _).trans (nextWrite_tame _)))

theorem writeEnded_tables (b : StoreBlock) (good : Bool) (s : State) : KeepsTables s (writeEnded b good s) := by
  rw [writeEnded_eq]
  split
  · exact (writeClosed_tame b good s).tables.trans (enterStandby_tables _)
  · exact (writeClosed_tame b good s).tables

theorem writeEnded_law {b : StoreBlock} {good : Bool} {s : State} (h : PowerLaw s) :
    PowerLaw (writeEnded b good s) := by
  have hc := (writeClosed_tame b good s).power.law h
  rw [writeEnded_eq]
  split
  · rename_i he
    simp only [Bool.and_eq_true] at he
    exact enterStandby_law hc he.1
  · exact hc

/-! ### The works of the remaining commands -/

theorem setHlc_tame {h : Hlc} {s : State} (hp : h.processing = s.hlc.processing) (hb : h.buffer = s.hlc.buffer) :
    Tame s { s with hlc := h } := Tame.of_same (hpr := hp) (hb := hb)

theorem scanAt_tame (codes : ScanCodes) (t : Nat) (s : State) : Tame s (scanAt codes t s) :=
  ⟨⟨id, id, fun _ => id, id⟩, .of_same rfl rfl rfl rfl rfl rfl rfl rfl⟩

theorem parkedStep_tame (codes : ScanCodes) (acc : State × List FltEffect) (c : Circuit) :
    Tame acc.1 (parkedStep codes acc c).1 := by
  unfold parkedStep
  simp only
  split
  · exact (setSenseSat_tame _ _ _).trans (judgeOffer_tame _ _)
  · exact .refl _

theorem foldl_parkedStep_tame (codes : ScanCodes) (cs : List Circuit) (s : State) (es : List FltEffect) :
    Tame s (cs.foldl (parkedStep codes) (s, es)).1 := by
  induction cs generalizing s es with
  | nil => exact .refl _
  | cons c cs ih => exact (parkedStep_tame codes (s, es) c).trans (ih _ _)

theorem countLowSupply_tame (s : State) : Tame s (countLowSupply s) := by
  have hcount : ∀ n, Tame s { s with pwc := { s.pwc with lowScans := n } } := fun n => setPwc_tame rfl rfl rfl
  unfold countLowSupply
  split
  · simp only
    split
    · exact (hcount _).trans (reportWake_tame _ _)
    · exact hcount _
  · exact hcount _

theorem standbyScanWork_tame (codes : ScanCodes) (s : State) : Tame s (standbyScanWork codes s) :=
  (setSfe_tame { s.sfe with supplyReading := sampleSupply codes.supply } s).trans ((setVoltage_tame _ _).trans
    ((countLowSupply_tame _).trans ((foldl_parkedStep_tame codes allCircuits _ []).trans (handOver_tame _ _))))

/-- A watch loaded again was counting down, so that the part was in ACTIVE. -/
theorem reloadWatch_tame {c : Circuit} {a : Arming} {n : Nat} {s : State}
    (h : (s.jge.watches.get c).armed = some a) : Tame s (reloadWatch c n s) := by
  refine ⟨.of_same rfl rfl rfl id rfl rfl, ⟨rfl, rfl, rfl, rfl, rfl, id, fun _ => id, fun _ hu => ?_⟩⟩
  rw [hu c] at h
  cases h

theorem cadenceWork_tame {c : Circuit} {a : Arming} {s : State} (h : (s.jge.watches.get c).armed = some a) :
    Tame s (reloadWatch c a.period (if withheld (reach a.expires s) c then reach a.expires s
      else onFaults (applyBatch (reach a.expires s).params [expiryVerdict c]) (reach a.expires s))) := by
  split
  · exact (reach_tame _ s).trans (reloadWatch_tame h)
  · refine ((reach_tame a.expires s).trans (onFaults_applyBatch_tame _ _ _)).trans (reloadWatch_tame (a := a) ?_)
    rw [onFaults_eq]
    exact h

theorem holdoffWork_tame (d : Nat) (s : State) :
    Tame s (if s.clc.pendingTrigger then
      triggerCensus (setClc { (reach d s).clc with holdoff := none, pendingTrigger := false } (reach d s))
      else setClc { (reach d s).clc with holdoff := none, pendingTrigger := false } (reach d s)) := by
  have hoff : Tame s (setClc { (reach d s).clc with holdoff := none, pendingTrigger := false } (reach d s)) :=
    (reach_tame d s).trans (setClc_narrow_tame rfl (.inr rfl) (.refl _))
  split
  · exact hoff.trans (triggerCensus_tame _)
  · exact hoff

/-! ### Each command -/

theorem resetCommands_lawful (s : State) :
    (∃ t, exec .powerOn s = .next t ∧ Lawful s t) ∧ (∃ t, exec .resetLineAssert s = .next t ∧ Lawful s t) ∧
      (∃ t, exec .resetLineRelease s = .next t ∧ Lawful s t) ∧
      (∃ t, exec .restartReset s = .next t ∧ Lawful s t) := by
  refine ⟨⟨_, rfl, doReset_lawful _ _ s⟩, ⟨_, rfl, doReset_lawful _ _ s⟩, ⟨_, rfl, ?_⟩, ⟨_, rfl, ?_⟩⟩
  · split
    · exact doReset_lawful _ _ s
    · exact ⟨.refl s, id, id⟩
  · split
    · exact doReset_lawful _ _ s
    · exact ⟨.refl s, id, id⟩

theorem storeLoadDone_lawful (s : State) : ∃ t, exec .storeLoadDone s = .next t ∧ Lawful s t := by
  refine ⟨_, rfl, event_lawful ?_ fun h => ?_⟩
  · split
    · exact (loadStore_tables s).trans ((setPower_tables _ _).trans (completeLoad_tail_tame s).tables)
    · exact .refl s
  · split
    · rename_i hs
      exact completeLoad_law hs h
    · exact h

theorem storeWriteEnd_lawful (good : Bool) (s : State) :
    ∃ t, exec (.storeWriteEnd good) s = .next t ∧ Lawful s t := by
  refine ⟨_, rfl, event_lawful ?_ fun h => ?_⟩
  · split
    · exact writeEnded_tables _ _ s
    · exact .refl s
  · split
    · exact writeEnded_law h
    · exact h

theorem hostFrameValid_lawful (kind : Byte) (body : List Byte) (s : State) :
    Lawful s (event (frameCompletes { kind := kind, body := body }) s) :=
  event_lawful (frameCompletes_tables _ s) (frameCompletes_law _)

theorem unknownKind_lawful (kind : Byte) (body : List Byte) (s : State) :
    ∃ t, exec (.unknownKind kind body) s = .next t ∧ Lawful s t := by
  refine ⟨_, rfl, ?_⟩
  split
  · exact hostFrameValid_lawful kind body s
  · exact hostRecord_lawful (.of_tame .refl) s

theorem linkCommands_lawful (s : State) :
    (∃ t, exec .hostFrameOversize s = .next t ∧ Lawful s t) ∧
      (∃ t, exec .hostFrameBroken s = .next t ∧ Lawful s t) ∧
      (∃ t, exec .hostFrameBadCrc s = .next t ∧ Lawful s t) ∧
      (∃ t, exec .frameSent s = .next t ∧ Lawful s t) ∧ (∃ t, exec .fwStale s = .next t ∧ Lawful s t) ∧
      (∃ t, exec .linkSilent s = .next t ∧ Lawful s t) := by
  refine ⟨⟨_, rfl, event_tame (setHlc_tame rfl rfl)⟩, ⟨_, rfl, event_tame (setHlc_tame rfl rfl)⟩,
    ⟨_, rfl, event_tame (setHlc_tame rfl rfl)⟩, ⟨_, rfl, event_tame (setHlc_tame ?_ ?_)⟩,
    ⟨_, rfl, event_tame ?_⟩, ⟨_, rfl, event_tame ?_⟩⟩
  · simp
  · simp
  · split
    · exact (reach_tame _ s).trans (becomeStale_tame _)
    · exact .refl s
  · split
    · split
      · exact (reach_tame _ s).trans (setHlc_tame rfl rfl)
      · exact .refl s
    · exact .refl s

theorem scans_lawful (codes : ScanCodes) (s : State) :
    (∃ t, exec (.scan codes) s = .next t ∧ Lawful s t) ∧
      (∃ t, exec (.standbyScan codes) s = .next t ∧ Lawful s t) := by
  refine ⟨⟨_, rfl, event_tame ?_⟩, ⟨_, rfl, event_tame ?_⟩⟩
  · split
    · exact .refl s
    · exact scanAt_tame _ _ s
  · split
    · exact (reach_tame _ s).trans ((setSfe_tame _ _).trans (standbyScanWork_tame _ _))
    · exact .refl s

theorem supplyWindowComplete_lawful (s : State) :
    ∃ t, exec .supplyWindowComplete s = .next t ∧ Lawful s t := by
  refine ⟨_, rfl, event_tame ?_⟩
  split
  · split
    · exact .refl s
    · exact (reach_tame _ s).trans ((setSfe_tame _ _).trans (setVoltage_tame _ _))
  · exact .refl s

theorem circuitCommands_lawful (c : Circuit) (s : State) :
    (∃ t, exec (.zeroWindowComplete c) s = .next t ∧ Lawful s t) ∧
      (∃ t, exec (.settleExpiry c) s = .next t ∧ Lawful s t) ∧
      (∃ t, exec (.judgementInstant c) s = .next t ∧ Lawful s t) ∧
      (∃ t, exec (.cadenceExpiry c) s = .next t ∧ Lawful s t) := by
  refine ⟨⟨_, rfl, event_tame ?_⟩, ⟨_, rfl, event_tame ?_⟩, ⟨_, rfl, event_tame ?_⟩, ⟨_, rfl, event_tame ?_⟩⟩
  · split
    · exact (reach_tame _ s).trans (completeZero_tame _ _ _)
    · exact .refl s
  · split
    · split
      · exact (reach_tame _ s).trans (setCircuit_tame _ _ _)
      · exact .refl s
    · exact .refl s
  · split
    · exact (reach_tame _ s).trans (completeJudgement_tame _ _ _ _)
    · exact .refl s
  · split
    · rename_i a ha
      exact cadenceWork_tame ha
    · exact .refl s

theorem censusFrames_lawful (s : State) :
    (∃ t, exec .rollSend s = .next t ∧ Lawful s t) ∧ (∃ t, exec .assignSend s = .next t ∧ Lawful s t) := by
  refine ⟨⟨_, rfl, event_tame ?_⟩, ⟨_, rfl, event_tame ?_⟩⟩
  · split
    · rename_i htask hline
      exact sendTask_tame hline fun t => by rw [htask]; rfl
    · exact .refl s
  · split
    · rename_i htask hline
      exact sendTask_tame hline fun t => by rw [htask]; rfl
    · exact .refl s

/-- A visit's POLL begins: no ASSIGN is on its line. -/
theorem pollFrame_tame (v : Option Visit) (y : Option PollCycle) (s : State) :
    Tame s (beginFrame .poll (setClc { s.clc with visit := v, cycle := y } s)) :=
  Tame.trans (t := setClc { s.clc with visit := v, cycle := y } s) (setClc_narrow_tame rfl (.inr rfl) (.refl _))
    (beginFrame_poll_tame _)

theorem beginVisit_tame (i : Nat) (y : PollCycle) (s : State) : Tame s (beginVisit i y s) :=
  (reach_tame _ s).trans (pollFrame_tame _ _ _)

theorem pollFrames_lawful (s : State) :
    (∃ t, exec .visitStart s = .next t ∧ Lawful s t) ∧ (∃ t, exec .repoll s = .next t ∧ Lawful s t) := by
  refine ⟨⟨_, rfl, event_tame ?_⟩, ⟨_, rfl, event_tame ?_⟩⟩
  · split
    · split
      · split
        · exact .refl s
        · exact beginVisit_tame _ _ s
      · exact .refl s
    · exact .refl s
  · split
    · split
      · exact (reach_tame _ s).trans (pollFrame_tame _ s.clc.cycle _)
      · exact .refl s
    · exact .refl s

theorem chainFrameSent_lawful (s : State) : ∃ t, exec .chainFrameSent s = .next t ∧ Lawful s t := by
  refine ⟨_, rfl, event_tame ?_⟩
  split
  · rename_i x ends hline
    refine (reach_tame ends s).trans (setClc_narrow_tame rfl (.inr rfl) ?_)
    have hopen : (reach ends s).clc.line = .sending x ends := hline
    simp only [openAssigns_eq, hopen]
    rw [lineAssigns_sending x ends ((reach ends s).now + answerWindow)]
  · exact .refl s

theorem exchangeEnds_lawful (s : State) :
    (∀ frame, ∃ t, exec (.chainAnswerComplete frame) s = .next t ∧ Lawful s t) ∧
      (∃ t, exec .chainAnswerAbandon s = .next t ∧ Lawful s t) ∧
      (∃ t, exec .answerWindowClose s = .next t ∧ Lawful s t) := by
  refine ⟨fun frame => ⟨_, rfl, event_tame ?_⟩, ⟨_, rfl, event_tame ?_⟩, ⟨_, rfl, event_tame ?_⟩⟩
  · split
    · rename_i hline
      split
      · exact answerExchange_tame _ (.of_window hline)
      · exact failExchange_tame _ (.of_window hline)
    · exact activeUntil_tame _ s
    · exact activeUntil_tame _ s
  · split
    · rename_i hline
      exact failExchange_tame _ (.of_window hline)
    · exact activeUntil_tame _ s
    · exact activeUntil_tame _ s
  · split
    · rename_i hline
      exact (reach_tame _ s).trans (failExchange_tame _ (.of_window (k := (reach _ s).clc) hline))
    · exact .refl s

theorem strayChainFrame_lawful (frame : ChainFrame) (s : State) :
    ∃ t, exec (.strayChainFrame frame) s = .next t ∧ Lawful s t := by
  refine ⟨_, rfl, ?_⟩
  split
  · exact ⟨.refl s, id, id⟩
  · exact (activeUntil_tame s.now s).lawful rfl rfl rfl rfl rfl

theorem chainTimers_lawful (s : State) :
    (∃ t, exec .visitTimeLimit s = .next t ∧ Lawful s t) ∧ (∃ t, exec .pollCycleEnd s = .next t ∧ Lawful s t) ∧
      (∃ t, exec .standbyPollCycle s = .next t ∧ Lawful s t) ∧
      (∃ t, exec .holdoffExpiry s = .next t ∧ Lawful s t) := by
  refine ⟨⟨_, rfl, event_tame ?_⟩, ⟨_, rfl, event_tame ?_⟩, ⟨_, rfl, event_tame ?_⟩, ⟨_, rfl, event_tame ?_⟩⟩
  · split
    · exact (reach_tame _ s).trans ((closeVisit_tame _).trans (visitMissed_tame _ _))
    · exact .refl s
  · split
    · split
      · exact .refl s
      · exact (reach_tame _ s).trans (setClc_narrow_tame rfl (.inr rfl) (.refl _))
    · exact .refl s
  · split
    · exact (reach_tame _ s).trans (setClc_narrow_tame rfl (.inr rfl) (.refl _))
    · exact .refl s
  · split
    · exact holdoffWork_tame _ s
    · exact .refl s

theorem agingSweep_lawful (s : State) : ∃ t, exec .agingSweep s = .next t ∧ Lawful s t := by
  refine ⟨_, rfl, event_tame ?_⟩
  split
  · rename_i since _
    have hswept : ∀ u : State, Tame u { u with
        pwc := { u.pwc with agingCount := 0, agingSince := some u.now }
        ldt := sweep (identitiesOf u.clc.table) u.ldt } := fun u => Tame.of_same
    have hfull : ∀ u : State, Tame u (if u.ldt.signatureTrack.isSome then setLoadsFull (loadsFullDue u.ldt) u else u) := by
      intro u
      split
      · exact Tame.of_same
      · exact .refl u
    exact (reach_tame _ s).trans ((hswept _).trans (hfull _))
  · exact .refl s

theorem displayTimers_lawful (s : State) :
    (∀ entry, ∃ t, exec (.lingerExpiry entry) s = .next t ∧ Lawful s t) ∧
      (∃ t, exec .reconcileExpiry s = .next t ∧ Lawful s t) := by
  refine ⟨fun entry => ⟨_, rfl, event_tame ?_⟩, ⟨_, rfl, event_tame ?_⟩⟩
  · split
    · exact (reach_tame _ s).trans ((setList_tame (List.length_filter_le _ _)).trans (reevaluate_tame _ _))
    · exact .refl s
  · split
    · rename_i d _
      have hstop := (reach_tame d s).trans (stopReconcile_tame _)
      simp only
      split
      · exact hstop.trans (setMirror_tame _ _)
      · exact hstop
    · exact .refl s

theorem serviceTimers_lawful (s : State) :
    (∃ t, exec .captureWindowExpiry s = .next t ∧ Lawful s t) ∧
      (∃ t, exec .releaseTimerExpiry s = .next t ∧ Lawful s t) := by
  refine ⟨⟨_, rfl, event_tame ?_⟩, ⟨_, rfl, event_tame ?_⟩⟩
  · split
    · split
      · exact (reach_tame _ s).trans (endCapture_tame _ _)
      · exact .refl s
    · exact .refl s
  · split
    · split
      · exact (reach_tame _ s).trans (endRelease_tame _ _)
      · exact .refl s
    · exact .refl s

theorem serviceLine_lawful (s : State) :
    (∃ t, exec .serviceLineFall s = .next t ∧ Lawful s t) ∧
      (∃ t, exec .serviceLineRise s = .next t ∧ Lawful s t) := by
  have hline : ∀ b, Lawful s (setSvc { s.svc with line := b } s) := fun b =>
    Tame.lawful (t := setSvc { s.svc with line := b } s) (setSvc_tame rfl) rfl rfl rfl rfl rfl
  refine ⟨⟨_, rfl, ?_⟩, ⟨_, rfl, hline true⟩⟩
  split
  · exact (hline false).trans (event_tame (serviceOff_tame _))
  · exact hline false

/-- Every command has a meaning, and it keeps the laws. -/
theorem exec_lawful (i : Instr) (s : State) : ∃ t, exec i s = .next t ∧ Lawful s t := by
  cases i with
  | powerOn => exact (resetCommands_lawful s).1
  | resetLineAssert => exact (resetCommands_lawful s).2.1
  | resetLineRelease => exact (resetCommands_lawful s).2.2.1
  | restartReset => exact (resetCommands_lawful s).2.2.2
  | storeLoadDone => exact storeLoadDone_lawful s
  | hostFrameValid kind body => exact ⟨_, rfl, hostFrameValid_lawful kind body s⟩
  | hostFrameOversize => exact (linkCommands_lawful s).1
  | hostFrameBroken => exact (linkCommands_lawful s).2.1
  | hostFrameBadCrc => exact (linkCommands_lawful s).2.2.1
  | unknownKind kind body => exact unknownKind_lawful kind body s
  | frameSent => exact (linkCommands_lawful s).2.2.2.1
  | identify body => exact ⟨_, rfl, hostRecord_lawful (.of_tame answerIdentify_tame) s⟩
  | status body => exact ⟨_, rfl, hostRecord_lawful (.of_tame fun s => sendAll_tame _ s) s⟩
  | census body => exact ⟨_, rfl, hostRecord_lawful (.of_tame answerCensus_tame) s⟩
  | readChain body => exact ⟨_, rfl, hostRecord_lawful (.of_tame fun s => sendAll_tame _ s) s⟩
  | readLoads body => exact ⟨_, rfl, hostRecord_lawful (.of_tame (answerReadLoads_tame _)) s⟩
  | readFaults body => exact ⟨_, rfl, hostRecord_lawful (.of_tame (answerReadFaults_tame _)) s⟩
  | display body =>
    exact ⟨_, rfl, hostRecord_lawful (Owner.of_serves (kind := 0x07) answerDisplay_serves (by decide) (by decide)) s⟩
  | setParam body => exact ⟨_, rfl, hostRecord_lawful (.of_tame (answerSetParam_tame _ _ _)) s⟩
  | readParam body => exact ⟨_, rfl, hostRecord_lawful (.of_tame (answerReadParam_tame _ _)) s⟩
  | writeRule body =>
    exact ⟨_, rfl, hostRecord_lawful (Owner.of_serves (kind := 0x0A) (answerWriteRule_serves _) (by decide) (by decide)) s⟩
  | readRule body => exact ⟨_, rfl, hostRecord_lawful (.of_tame (answerReadRule_tame _)) s⟩
  | relearn body => exact ⟨_, rfl, hostRecord_lawful (.of_tame (answerRelearn_tame _ _)) s⟩
  | storeConfig body => exact ⟨_, rfl, hostRecord_lawful (.of_tame answerStoreConfig_tame) s⟩
  | standby body =>
    exact ⟨_, rfl, hostRecord_lawful
      (Owner.of_frames (kind := 0x0E) answerStandby_tables answerStandby_frames (by decide) (by decide)) s⟩
  | restart body =>
    exact ⟨_, rfl, hostRecord_lawful
      (Owner.of_frames (kind := 0x0F) answerRestart_tables answerRestart_frames (by decide) (by decide)) s⟩
  | clearWake body => exact ⟨_, rfl, hostRecord_lawful (.of_tame (answerClearWake_tame _)) s⟩
  | serviceEnter body =>
    exact ⟨_, rfl, hostRecord_lawful
      (Owner.of_frames (kind := 0x11) answerServiceEnter_tables answerServiceEnter_frames (by decide) (by decide)) s⟩
  | serviceLeave body => exact ⟨_, rfl, hostRecord_lawful (.of_tame answerServiceLeave_tame) s⟩
  | serviceReset body => exact ⟨_, rfl, hostRecord_lawful (.of_tame answerServiceReset_tame) s⟩
  | commissionBegin body => exact ⟨_, rfl, hostRecord_lawful (.of_tame (answerCommissionBegin_tame _ _)) s⟩
  | commissionConfirm body => exact ⟨_, rfl, hostRecord_lawful (.of_tame (answerCommissionConfirm_tame _ _)) s⟩
  | readCapture body => exact ⟨_, rfl, hostRecord_lawful (.of_tame fun s => sendAll_tame _ s) s⟩
  | releaseBegin body => exact ⟨_, rfl, hostRecord_lawful (.of_tame (answerReleaseBegin_tame _)) s⟩
  | releaseConfirm body => exact ⟨_, rfl, hostRecord_lawful (.of_tame (answerReleaseConfirm_tame _ _)) s⟩
  | clearFaults body => exact ⟨_, rfl, hostRecord_lawful (.of_tame answerClearFaults_tame) s⟩
  | function body =>
    exact ⟨_, rfl, hostRecord_lawful (Owner.of_serves (kind := 0x20) (answerFunction_serves _) (by decide) (by decide)) s⟩
  | clusterReport body =>
    exact ⟨_, rfl, hostRecord_lawful (Owner.of_serves (kind := 0x21) (takeReport_serves _) (by decide) (by decide)) s⟩
  | fwStale => exact (linkCommands_lawful s).2.2.2.2.1
  | linkSilent => exact (linkCommands_lawful s).2.2.2.2.2
  | scan codes => exact (scans_lawful codes s).1
  | supplyWindowComplete => exact supplyWindowComplete_lawful s
  | zeroWindowComplete c => exact (circuitCommands_lawful c s).1
  | settleExpiry c => exact (circuitCommands_lawful c s).2.1
  | judgementInstant c => exact (circuitCommands_lawful c s).2.2.1
  | standbyScan codes => exact (scans_lawful codes s).2
  | cadenceExpiry c => exact (circuitCommands_lawful c s).2.2.2
  | rollSend => exact (censusFrames_lawful s).1
  | assignSend => exact (censusFrames_lawful s).2
  | visitStart => exact (pollFrames_lawful s).1
  | repoll => exact (pollFrames_lawful s).2
  | chainFrameSent => exact chainFrameSent_lawful s
  | chainAnswerComplete frame => exact (exchangeEnds_lawful s).1 frame
  | chainAnswerAbandon => exact (exchangeEnds_lawful s).2.1
  | answerWindowClose => exact (exchangeEnds_lawful s).2.2
  | strayChainFrame frame => exact strayChainFrame_lawful frame s
  | visitTimeLimit => exact (chainTimers_lawful s).1
  | pollCycleEnd => exact (chainTimers_lawful s).2.1
  | standbyPollCycle => exact (chainTimers_lawful s).2.2.1
  | holdoffExpiry => exact (chainTimers_lawful s).2.2.2
  | agingSweep => exact agingSweep_lawful s
  | lingerExpiry entry => exact (displayTimers_lawful s).1 entry
  | reconcileExpiry => exact (displayTimers_lawful s).2
  | captureWindowExpiry => exact (serviceTimers_lawful s).1
  | releaseTimerExpiry => exact (serviceTimers_lawful s).2
  | serviceLineFall => exact (serviceLine_lawful s).1
  | serviceLineRise => exact (serviceLine_lawful s).2
  | storeWriteEnd good => exact storeWriteEnd_lawful good s

/-! ### Each step -/

theorem tick_lawful (s : State) : ∃ t, tick s = .next t ∧ Lawful s t :=
  ⟨_, rfl, (Tame.of_same (t := { s with now := s.now + 1 })).lawful rfl rfl rfl rfl rfl⟩

theorem setReceiver_lawful (w : List RxByte) (r : Receiver) (s : State) :
    Lawful s { s with hlc := { s.hlc with wire := w, receiver := r } } := by
  have h : Tame s { s with hlc := { s.hlc with wire := w, receiver := r } } := setHlc_tame rfl rfl
  exact h.lawful rfl rfl rfl rfl rfl

theorem setPending_lawful (q : List Instr) (s : State) : Lawful s { s with pending := q } := by
  have h : Tame s { s with pending := q } := Tame.of_same
  exact h.lawful rfl rfl rfl rfl rfl

theorem listen_lawful (s : State) : ∃ t, listen s = .next t ∧ Lawful s t := by
  unfold listen
  split
  · exact tick_lawful s
  · split
    · exact exec_lawful _ s
    · split
      · rename_i b rest _
        split
        · have htaken := setReceiver_lawful rest (s.hlc.receiver.take b).1 s
          simp only
          split
          · rename_i i _
            obtain ⟨t, ht, hl⟩ := exec_lawful i { s with hlc := { s.hlc with
              wire := rest, receiver := (s.hlc.receiver.take b).1 } }
            exact ⟨t, ht, htaken.trans hl⟩
          · exact ⟨_, rfl, htaken⟩
        · exact tick_lawful s
      · exact tick_lawful s

/-- Every step has a next state, and it keeps the laws. -/
theorem step_lawful (s : State) : ∃ t, step s = .next t ∧ Lawful s t := by
  unfold step
  split
  · rename_i c rest _
    obtain ⟨t, ht, hl⟩ := exec_lawful c { s with pending := rest }
    exact ⟨t, ht, (setPending_lawful rest s).trans hl⟩
  · unfold idle
    split
    · split
      · exact exec_lawful _ s
      · exact listen_lawful s
    · exact listen_lawful s

theorem lawful_of_step {s t : State} (h : step s = .next t) : Lawful s t := by
  obtain ⟨u, hu, hl⟩ := step_lawful s
  rw [h] at hu
  cases hu
  exact hl

end Sys2Proof.Machine

open Sys2Proof Sys2Proof.Machine

/-- Settles O5: each step keeps the lines as the state gives them, and what the power state excludes. -/
theorem everyStepKeepsTheLines : Obligations.EveryStepKeepsTheLines :=
  fun _ _ h => ⟨(lawful_of_step h).lines, (lawful_of_step h).power⟩

/-- Settles O6: each step keeps the sizes of the tables together with that of the list. -/
theorem everyStepKeepsTheTableSizes : Obligations.EveryStepKeepsTheTableSizes :=
  fun _ _ hz hl h => (lawful_of_step h).tables.sized ⟨hz, hl⟩

/-- Settles O7: each step keeps the chain table's law, with the ASSIGN that is open as its invariant asks. -/
theorem everyStepKeepsTheChainTable : Obligations.EveryStepKeepsTheChainTable :=
  fun _ _ hc h => (lawful_of_step h).tables.chain hc

/-- Settles O8: each step keeps one record a key, by the law of the chain table, and the fast-flash requests. -/
theorem everyStepKeepsTheFaultKeys : Obligations.EveryStepKeepsTheFaultKeys :=
  fun _ _ h => ⟨(lawful_of_step h).tables.keys, (lawful_of_step h).tables.flash⟩

end


/-! ### Steps, the end of an event and the course of a host frame -/

section
/-!
PROOFS. The statements about a step on its queue, the end of an event, the state after reset and the frames of the host
link that meet no owner: O1 to O4, O10 to O12 and O15.
-/
namespace Sys2Proof.Machine

/-! ### What an event leaves as it was, composed -/

theorem OnlyChanges.refl (s : State) : OnlyChanges [] s s := by
  intro b _
  cases b <;> rfl

theorem Same.trans {s t u : State} {b : Block} (h : Same s t b) (k : Same t u b) : Same s u b := by
  cases b <;> exact Eq.trans k h

theorem OnlyChanges.trans {as bs : List Block} {s t u : State} (h : OnlyChanges as s t) (k : OnlyChanges bs t u) :
    OnlyChanges (as ++ bs) s u := by
  intro b hb
  rw [List.mem_append, not_or] at hb
  exact (h b hb.1).trans (k b hb.2)

theorem OnlyChanges.mono {as bs : List Block} {s t : State} (h : OnlyChanges as s t) (hs : as ⊆ bs) :
    OnlyChanges bs s t :=
  fun b hb => h b fun ha => hb (hs ha)

/-- Each part of the state is named or unchanged, the latter by the laws of the updates the work is made of. -/
theorem OnlyChanges.of_fields {bs : List Block} {s t : State}
    (hnow : .now ∉ bs → t.now = s.now := by simp) (hfree : .freeCount ∉ bs → t.freeCount = s.freeCount := by simp)
    (hparams : .params ∉ bs → t.params = s.params := by simp) (hsfe : .sfe ∉ bs → t.sfe = s.sfe := by simp)
    (hclc : .clc ∉ bs → t.clc = s.clc := by simp) (hldt : .ldt ∉ bs → t.ldt = s.ldt := by simp)
    (hjge : .jge ∉ bs → t.jge = s.jge := by simp) (hflt : .flt ∉ bs → t.flt = s.flt := by simp)
    (hdsr : .dsr ∉ bs → t.dsr = s.dsr := by simp) (hsvc : .svc ∉ bs → t.svc = s.svc := by simp)
    (hhlc : .hlc ∉ bs → t.hlc = s.hlc := by simp) (hstc : .stc ∉ bs → t.stc = s.stc := by simp)
    (hpwc : .pwc ∉ bs → t.pwc = s.pwc := by simp) (hpending : .pending ∉ bs → t.pending = s.pending := by simp) :
    OnlyChanges bs s t := by
  intro b hb
  cases b
  case now => exact hnow hb
  case freeCount => exact hfree hb
  case params => exact hparams hb
  case sfe => exact hsfe hb
  case clc => exact hclc hb
  case ldt => exact hldt hb
  case jge => exact hjge hb
  case flt => exact hflt hb
  case dsr => exact hdsr hb
  case svc => exact hsvc hb
  case hlc => exact hhlc hb
  case stc => exact hstc hb
  case pwc => exact hpwc hb
  case pending => exact hpending hb

/-! ### The STATUS-CHANGE (R169, R178) -/

theorem mem_addMatter {m n : Matter} {ms : List Matter} : n ∈ addMatter m ms ↔ n ∈ ms ∨ n = m := by
  unfold addMatter
  split
  · rename_i h
    constructor
    · exact .inl
    · rintro (hn | rfl)
      · exact hn
      · exact h
  · simp

theorem mem_joinMatters {n : Matter} {a b : List Matter} : n ∈ joinMatters a b ↔ n ∈ a ∨ n ∈ b := by
  unfold joinMatters
  induction b generalizing a with
  | nil => simp
  | cons m b ih => rw [List.foldl_cons, ih, mem_addMatter, List.mem_cons]; tauto

/-- The change set of a STATUS-CHANGE made now: those that wait, with what has changed since. -/
def gathered (s : State) : List Matter :=
  joinMatters ((s.hlc.queue.map TxRecord.changeSet).flatten) s.hlc.changes

theorem mem_gathered {m : Matter} {s : State} :
    m ∈ gathered s ↔ m ∈ s.hlc.changes ∨ ∃ r ∈ s.hlc.queue, m ∈ r.changeSet := by
  simp [gathered, mem_joinMatters, or_comm]

/-- It leaves last, and those that waited are withdrawn. -/
theorem sendStatusChange_outgoing (s : State) : outgoing (sendStatusChange s).hlc =
    s.hlc.sending.toList ++ s.hlc.queue.filter (fun r => !r.isStatusChange) ++
      [.statusChange (gathered s) (statusValues s)] := by
  unfold sendStatusChange
  simp only [outgoing_enqueue]
  rfl

/-! ### Events with nothing to report -/

/-- Out of ACTIVE, with a wake in hand or with nothing changed, an event ends with its lines alone. -/
theorem finish_noticeless {s : State} (h : s.pwc.power ≠ .active ∨ waking s = true ∨ s.hlc.changes = []) :
    finish s = refreshLines s := by
  have hw : waking (refreshLines s) = waking s := rfl
  unfold finish
  rcases h with h | h | h <;> simp [h, hw]

theorem refreshLines_still {s : State} (h : LinesLaw s) : refreshLines s = s := by
  obtain ⟨h1, h2⟩ := h
  unfold refreshLines
  rw [← h1, ← h2]

/-! ### A host record is its frame's (R199) -/

/-- Every frame's command is the record of that frame, with some owner's work. -/
theorem exec_commandOfFrame (f : HostFrame) :
    ∃ owner : State → State, ∀ s, exec (commandOfFrame f) s = .next (hostRecord f owner s) := by
  obtain ⟨k, body⟩ := f
  have hk : k = BitVec.ofNat 8 k.toNat := by simp
  unfold commandOfFrame
  split
  case h_28 =>
    refine ⟨id, fun s => ?_⟩
    have hreport : k ≠ clusterReportKind := by
      rintro rfl
      contradiction
    have hn : isHostKind k = false := by
      unfold isHostKind bodyLength
      split
      case h_27 => simp [hreport]
      all_goals contradiction
    simp [exec, execUnknownKind, hn]
  all_goals
    rename_i h
    simp only at h
    rw [h] at hk
    subst hk
    exact ⟨_, fun _ => rfl⟩

theorem exec_unknownKind {f : HostFrame} (h : isHostKind f.kind = false) (s : State) :
    exec (.unknownKind f.kind f.body) s = .next (hostRecord f id s) := by
  simp [exec, execUnknownKind, h]

theorem linkRefusal_unknown {f : HostFrame} (h : isHostKind f.kind = false) (p : PowerState) :
    linkRefusal { frame := f, cancelled := false, woke := false } p = some .unknownKind := by
  simp [linkRefusal, h]

theorem linkRefusal_length {f : HostFrame} (h : isHostKind f.kind = true) (hl : lengthGood f = false)
    (p : PowerState) : linkRefusal { frame := f, cancelled := false, woke := false } p = some .length := by
  simp [linkRefusal, h, hl]

theorem linkRefusal_notReady {f : HostFrame} (h : isHostKind f.kind = true) (hl : lengthGood f = true)
    (h1 : f.kind ≠ 0x01) (h2 : f.kind ≠ 0x02) :
    linkRefusal { frame := f, cancelled := false, woke := false } .start = some .notReady := by
  have hk : (PowerState.start = .start && f.kind != 0x01 && f.kind != 0x02) = true := by simpa using ⟨h1, h2⟩
  unfold linkRefusal
  rw [if_pos hk]
  simp [h, hl]

theorem linkRefusal_none {f : HostFrame} (h : isHostKind f.kind = true) (hl : lengthGood f = true) :
    linkRefusal { frame := f, cancelled := false, woke := false } .active = none := by
  simp [linkRefusal, h, hl]

/-! ### A host record in a part that listens, and in START -/

/-- The event of a record in a listening part ends with its answer, when that answer leaves the empty buffer, no change
to report, and what the lines look at. -/
theorem hostRecord_still {f : HostFrame} {owner : State → State} {s t : State} (h : Listening s)
    (ht : answer { frame := f, cancelled := false, woke := false } owner (restartSilence s) = t)
    (hb : t.hlc.buffer = none) (hc : t.hlc.changes = []) (hp : t.pwc = s.pwc) (hd : t.dsr = s.dsr)
    (hf : t.flt = s.flt) (hm : t.params = s.params) (hs : t.hlc.silent = s.hlc.silent) :
    hostRecord f owner s = t := by
  rw [hostRecord_answer f owner s h, ht, waitingCancels_empty _ hb, takeWaiting_empty _ hb]
  obtain ⟨-, -, -, -, -, -, -, hl⟩ := h
  exact finish_still _ hc (LinesLaw_of_same hl hp hd hf hm hs)

/-- The part in START, with the lines as they should be. -/
theorem Starting.finish {s t : State} (h : Starting s) (hp : t.pwc = s.pwc) (hd : t.dsr = s.dsr)
    (hf : t.flt = s.flt) (hm : t.params = s.params) (hs : t.hlc.silent = s.hlc.silent) : Machine.finish t = t := by
  obtain ⟨-, -, -, hpw, -, -, hl⟩ := h
  rw [finish_noticeless (.inl (by rw [hp, hpw]; simp))]
  exact refreshLines_still (LinesLaw_of_same hl hp hd hf hm hs)

/-- In START a frame is taken at once, with no silence timer to restart (R172). -/
theorem frameCompletes_starting (f : HostFrame) {s : State} (h : Starting s) :
    frameCompletes f s =
      { s with hlc := { s.hlc with processing := some { frame := f, cancelled := false, woke := false } } } := by
  obtain ⟨hh, hr, he, hp, ⟨hpr, hb, hrc⟩, hs, -⟩ := h
  have h0 : huntAgain s = s := by simp only [huntAgain]; rw [← hrc]
  have h1 : heard (frameArrives s) = s := by
    simp [heard, frameArrives, hp, he, hs]
    rw [← hs]
  simp [frameCompletes, h0, h1, bufferFrame, takeWaiting, takesFrames, hb, he, hp, hpr, hh, hr]

/-- A record in START is its frame's answer. -/
theorem hostRecord_starting {f : HostFrame} {owner : State → State} {s t : State} (h : Starting s)
    (ht : answer { frame := f, cancelled := false, woke := false } owner s = t)
    (hb : t.hlc.buffer = none) (hp : t.pwc = s.pwc) (hd : t.dsr = s.dsr)
    (hf : t.flt = s.flt) (hm : t.params = s.params) (hs : t.hlc.silent = s.hlc.silent) :
    hostRecord f owner s = t := by
  have hfinish := h.finish hp hd hf hm hs
  have harrive : Machine.finish (frameCompletes f s) = frameCompletes f s := by
    rw [frameCompletes_starting f h]
    exact h.finish rfl rfl rfl rfl rfl
  have hend : endProcessing (frameCompletes f s) = s := by
    rw [frameCompletes_starting f h]
    obtain ⟨-, -, -, -, ⟨hpr, -, -⟩, -, -⟩ := h
    simp only [endProcessing]
    rw [← hpr]
  have hproc : (frameCompletes f s).hlc.processing = some { frame := f, cancelled := false, woke := false } := by
    rw [frameCompletes_starting f h]
  obtain ⟨hh, -, -, -, ⟨hpr, -, -⟩, -, -⟩ := h
  have hi : isProcessed f s = false := by simp [isProcessed, hpr]
  unfold hostRecord
  simp only [hh, hi, Bool.false_eq_true, if_false, harrive, hproc, if_true]
  unfold process
  simp only [Bool.false_eq_true, if_false, hend, ht, waitingCancels_empty _ hb, takeWaiting_empty _ hb, hfinish]

/-- A frame the link refuses in START. -/
theorem hostRecord_starting_refused {f : HostFrame} {owner : State → State} {s : State} {r : Reason}
    (h : Starting s) (hr : linkRefusal { frame := f, cancelled := false, woke := false } .start = some r) :
    hostRecord f owner s = { s with hlc := s.hlc.enqueue (.refused f.kind r) } := by
  have hp : s.pwc.power = .start := h.2.2.2.1
  have hb : s.hlc.buffer = none := h.2.2.2.2.1.2.1
  refine hostRecord_starting h ?_ ?_ rfl rfl rfl rfl ?_
  · simp only [answer, hp, hr, refuse, send]
  · simpa using hb
  · simp

/-- The answers of STATUS enqueued leave what the events' end looks at. -/
theorem foldl_enqueue_same (rs : List TxRecord) (h : Hlc) :
    (rs.foldl (fun h r => h.enqueue r) h).changes = h.changes ∧
      (rs.foldl (fun h r => h.enqueue r) h).silent = h.silent ∧
      (rs.foldl (fun h r => h.enqueue r) h).buffer = h.buffer ∧
      (rs.foldl (fun h r => h.enqueue r) h).processing = h.processing := by
  induction rs generalizing h with
  | nil => exact ⟨rfl, rfl, rfl, rfl⟩
  | cons r rs ih => simpa using ih (h.enqueue r)

/-- Settles O1: the step's own first case. -/
theorem stepTakesTheFrontCommand : Obligations.StepTakesTheFrontCommand := fun _ _ _ => rfl

/-- Settles O2, by the cases of `idle` and of `listen`. -/
theorem anEmptyQueueTakesTheWaitingFrame : Obligations.AnEmptyQueueTakesTheWaitingFrame := by
  intro s hq
  have hstep : step s = idle s := by simp [step, hq]
  refine ⟨fun hh => ?_, fun w hw hh hr => ?_, fun hh hfree => ?_⟩
  · rw [hstep]
    cases hp : s.hlc.processing <;> simp [idle, hp, takesFrames, hh, listen, tick]
  · rw [hstep]
    simp [idle, hw, takesFrames, hh, hr]
  · have hlisten : step s = listen s := by
      rw [hstep]
      rcases hfree with hp | hr
      · simp [idle, hp]
      · cases hp : s.hlc.processing <;> simp [idle, hp, takesFrames, hr]
    refine ⟨fun taken last hrc hgap hnext => ?_, fun hrc => ?_⟩
    · have hbreaks : gapBreaks s = true := by
        simpa [gapBreaks, hrc, hgap, Option.all_eq_true] using hnext
      rw [hlisten]
      simp [listen, hh, hbreaks]
    · have hbreaks : gapBreaks s = false := by
        unfold gapBreaks
        cases hr : s.hlc.receiver with
        | hunting => rfl
        | receiving taken last =>
          rcases hrc taken last hr with h | ⟨b, hb, hlt⟩
          · simp; omega
          · simp [hb]; omega
      refine ⟨fun hw => ?_, fun b rest hw => ⟨fun hlt => ?_, fun hle => ⟨_, rfl, fun hn => ?_, fun i hi => ?_⟩⟩⟩
      · rw [hlisten]
        simp [listen, hh, hbreaks, hw, tick]
      · have hne : ¬ b.ends ≤ s.now := by unfold RxByte.ends; omega
        rw [hlisten]
        simp [listen, hh, hbreaks, hw, hne, tick]
      · have hends : b.ends ≤ s.now := hle
        rw [hlisten]
        simp [listen, hh, hbreaks, hw, hends, hn]
      · have hends : b.ends ≤ s.now := hle
        rw [hlisten]
        simp [listen, hh, hbreaks, hw, hends, hi]

theorem finish_only (s : State) : OnlyChanges [.dsr, .pwc, .hlc] s (finish s) := OnlyChanges.of_fields

/-- Settles O3: what `finish` writes, and the STATUS-CHANGE it may send. -/
theorem anEventEndsWithItsLinesAndItsNotice : Obligations.AnEventEndsWithItsLinesAndItsNotice := by
  intro s
  refine ⟨finish_lines s, finish_only s, finish_dsr s, finish_pwc s, fun h => finish_noticeless h,
    fun ha hw hc => ?_⟩
  have hfin := finish_reports s ha hw hc
  refine ⟨?_, _, _, ?_, rfl, fun m => mem_gathered (s := s)⟩
  · rw [hfin]
    exact sendStatusChange_hlc _
  · rw [hfin]
    exact sendStatusChange_outgoing _

/-- Settles O4: no table holds anything after reset, and the part is in START. -/
theorem resetMeetsTheLaws : Obligations.ResetMeetsTheLaws := by
  have hreset : PowerLaw State.reset := by
    refine ⟨?_, ?_, ?_, fun _ => ⟨rfl, rfl, fun c => ?_, rfl⟩⟩
    · rintro ⟨⟩
    · rintro (h | h) <;> cases h
    · rintro ⟨⟩
    · simp [State.reset, Jge.initial]
  refine ⟨⟨rfl, rfl⟩, ?_, by simp [ListLaw, State.reset, Dsr.initial], .of_idle ?_ rfl, ?_, ?_, hreset⟩
  · simp [SizesLaw, State.reset, Ldt.initial, Flt.initial, Jge.initial, defaultRules_length, Stc.factory, Copy.sealed]
  · simp [State.reset, Clc.initial, TableLaw]
  · simp [KeysLaw, State.reset, Flt.initial]
  · intro c _
    simp [State.reset, Flt.initial]

/-- Settles O10: the link's tests in their order, in a part that listens and in START. -/
theorem theLinkTestsComeFirst : Obligations.TheLinkTestsComeFirst := by
  refine ⟨fun f s h => ⟨fun hk => ?_, fun hk hl => ?_⟩,
    fun f s h => ⟨fun hk => ?_, fun hk hl => ?_, fun hk hl h1 h2 => ?_, ?_, ?_⟩⟩
  · rw [exec_unknownKind hk, hostRecord_refused f id s _ h (.inl (linkRefusal_unknown hk _))]
  · obtain ⟨owner, ho⟩ := exec_commandOfFrame f
    rw [ho, hostRecord_refused f owner s _ h (.inl (linkRefusal_length hk hl _))]
  · rw [exec_unknownKind hk, hostRecord_starting_refused h (linkRefusal_unknown hk _)]
  · obtain ⟨owner, ho⟩ := exec_commandOfFrame f
    rw [ho, hostRecord_starting_refused h (linkRefusal_length hk hl _)]
  · obtain ⟨owner, ho⟩ := exec_commandOfFrame f
    rw [ho, hostRecord_starting_refused h (linkRefusal_notReady hk hl h1 h2)]
  · have hp : s.pwc.power = .start := h.2.2.2.1
    have hb : s.hlc.buffer = none := h.2.2.2.2.1.2.1
    refine congrArg Host.Outcome.next (hostRecord_starting h ?_ ?_ rfl rfl rfl rfl ?_)
    · simp only [answer, hp, answerIdentify, send]
      rfl
    · simpa using hb
    · simp
  · have hp : s.pwc.power = .start := h.2.2.2.1
    have hb : s.hlc.buffer = none := h.2.2.2.2.1.2.1
    obtain ⟨-, hsilent, hbuffer, -⟩ := foldl_enqueue_same (statusReply s) s.hlc
    refine congrArg Host.Outcome.next (hostRecord_starting h ?_ (hbuffer.trans hb) rfl rfl rfl rfl hsilent)
    simp only [answer, hp]
    exact sendAll_eq _ _

/-- Settles O12: the arrival leaves the frame in processing, where the record takes it up. -/
theorem aFrameWaitsAndIsThenProcessed : Obligations.AFrameWaitsAndIsThenProcessed := by
  intro f s h
  have harrive := finish_arrival f s h
  have hfirst : exec (.hostFrameValid f.kind f.body) s = .next (frameCompletes f s) := by
    show Host.Outcome.next (event (frameCompletes f) s) = _
    rw [event_released _ _ h.1, harrive]
  refine ⟨_, hfirst, frameCompletes_listening f s h, ?_⟩
  obtain ⟨owner, ho⟩ := exec_commandOfFrame f
  rw [ho, ho]
  have hc := frameCompletes_listening f s h
  have hheld : (frameCompletes f s).pwc.held = false := by rw [hc]; exact h.1
  have hin : isProcessed f (frameCompletes f s) = true := by rw [hc]; simp [isProcessed]
  have hout : isProcessed f s = false := by simp [isProcessed, h.2.2.2.2.1.1]
  simp only [hostRecord, h.1, hheld, hin, hout, harrive, if_true, if_false, Bool.false_eq_true]

/-! ### The bytes of a host frame (R165, R166) -/

/-- Two bytes as the receiver joins them. -/
theorem joinBytes_eq_append (hi lo : Byte) : (hi.setWidth 16 <<< 8) ||| lo.setWidth 16 = hi ++ lo := by
  apply BitVec.eq_of_getLsbD_eq
  intro i hi'
  simp only [BitVec.getLsbD_or, BitVec.getLsbD_shiftLeft, BitVec.getLsbD_setWidth, BitVec.getLsbD_append]
  by_cases h : i < 8
  · simp [h, hi']
  · have h16 : i - 8 < 16 := by omega
    have hlo : lo.getLsbD i = false := BitVec.getLsbD_of_ge _ _ (by omega)
    simp [h, hi', h16, hlo]

/-- The CRC's two bytes joined are the CRC. -/
theorem append_split (x : BitVec 16) : (x >>> 8).setWidth 8 ++ x.setWidth 8 = x := by
  apply BitVec.eq_of_getLsbD_eq
  intro i hi
  simp only [BitVec.getLsbD_append, BitVec.getLsbD_setWidth, BitVec.getLsbD_ushiftRight]
  by_cases h : i < 8
  · simp [h]
  · have h8 : i - 8 < 8 := by omega
    have hsum : 8 + (i - 8) = i := by omega
    simp [h, h8, hsum]

theorem receiveFrame_oversize {len : Byte} {rest : List Byte} (h : maxBody < len.toNat) :
    receiveFrame (len :: rest) = some (.hostFrameOversize, rest) := by
  simp [receiveFrame, h]

/-- All bytes of a frame are there. -/
theorem receiveFrame_whole {len kind hi lo : Byte} {body after : List Byte} (hl : len.toNat ≤ maxBody)
    (hb : body.length = len.toNat) : receiveFrame (len :: kind :: (body ++ hi :: lo :: after)) =
      some (if crc16 (len :: kind :: body) = hi ++ lo then .hostFrameValid kind body else .hostFrameBadCrc,
        after) := by
  have hlen : ¬ maxBody < body.length := by omega
  simp only [receiveFrame, ← hb, hlen, if_false, List.take_left, List.drop_left, joinBytes_eq_append]
  split <;> rfl

/-- Bytes of a frame are missing. -/
theorem receiveFrame_part {len : Byte} {more : List Byte} (hl : len.toNat ≤ maxBody)
    (hm : more.length < len.toNat + 3) : receiveFrame (len :: more) = none := by
  have hlen : ¬ maxBody < len.toNat := by omega
  simp only [receiveFrame, hlen, if_false]
  cases more with
  | nil => rfl
  | cons kind more =>
    simp only [List.length_cons] at hm
    have hd : (more.drop len.toNat).length < 2 := by rw [List.length_drop]; omega
    simp only
    split
    · rename_i h
      rw [h] at hd
      simp at hd
    · rfl

theorem hunt_skip {before rest : List Byte} (h : syncByte ∉ before) :
    hunt (before ++ syncByte :: rest) = receiveFrame rest := by
  induction before with
  | nil => simp [hunt]
  | cons b before ih =>
    rw [List.mem_cons, not_or] at h
    rw [List.cons_append, hunt, if_neg (Ne.symm h.1), ih h.2]

/-- Settles O9: the hunt passes over what stands before, and the frame's own CRC matches. -/
theorem aHostFrameReadsBack : Obligations.AHostFrameReadsBack := by
  intro f before after hlen hsync
  have hto : (BitVec.ofNat 8 f.body.length).toNat = f.body.length := by
    simp only [maxBody] at hlen
    simp only [BitVec.toNat_ofNat]
    omega
  have hcrc : crc16 (BitVec.ofNat 8 f.body.length :: f.kind :: f.body) =
      (f.crc >>> 8).setWidth 8 ++ f.crc.setWidth 8 := (append_split f.crc).symm
  have hbytes : before ++ f.bytes ++ after = before ++ syncByte ::
      (BitVec.ofNat 8 f.body.length :: f.kind ::
        (f.body ++ (f.crc >>> 8).setWidth 8 :: f.crc.setWidth 8 :: after)) := by
    simp [HostFrame.bytes]
  rw [hbytes, hunt_skip hsync, receiveFrame_whole (by rw [hto]; exact hlen) hto.symm, if_pos hcrc]

/-- Settles O15: the cases of `Receiver.take`, and the four commands as their events. -/
theorem badFramesAreCountedAndSentOnesFollowed : Obligations.BadFramesAreCountedAndSentOnesFollowed := by
  refine ⟨fun s hh => ⟨?_, ?_, ?_, ?_⟩, fun b taken last => ⟨fun hs hv => ?_, fun h => ?_, fun hs => ?_,
    fun hs ht hv => ?_, fun len kind body hi hs hl hb ht => ?_, fun len more hs hl hm ht => ?_⟩⟩
  · exact congrArg Host.Outcome.next (event_released _ s hh)
  · exact congrArg Host.Outcome.next (event_released _ s hh)
  · exact congrArg Host.Outcome.next (event_released _ s hh)
  · refine congrArg Host.Outcome.next ((event_released _ s hh).trans ?_)
    cases hq : s.hlc.queue <;> simp [Hlc.pump, hq]
  · simp [Receiver.take, hs, hv, syncByte, RxByte.ends]
  · have hn : ¬ ((b.stop && decide (b.value = syncByte)) = true) := by
      rcases h with h | h
      · simp [h]
      · simp only [Bool.and_eq_true, decide_eq_true_eq, not_and]
        exact fun _ => h
    unfold Receiver.take
    rw [if_neg hn]
  · simp [Receiver.take, hs]
  · subst ht
    simp [Receiver.take, hs, receiveFrame_oversize (len := b.value) (rest := []) hv]
  · have hbytes : taken ++ [b.value] = len :: kind :: (body ++ hi :: b.value :: []) := by simp [ht]
    simp only [Receiver.take, hs, if_true, hbytes]
    rw [receiveFrame_whole hl hb]
  · simp only [Receiver.take, hs, if_true, ht, receiveFrame_part hl hm]
    rfl

end Sys2Proof.Machine
end


/-! ### What the transmit queue takes, and the end of a request -/

section
/-!
PROOFS. A relation between what waits to be sent before a work and after it, `Says`, which composes, and the end of a
host request in a part that listens.
-/
namespace Sys2Proof.Machine

/-- Of the Host Link Controller only the transmit queue and the change set have moved on, and the records `rs` have joined
those that wait; the two coalesced notices apart, none is withdrawn (R169). -/
structure Says (rs : List TxRecord) (h k : Hlc) : Prop where
  only : k = { h with sending := k.sending, queue := k.queue, changes := k.changes }
  replies : replies k = replies h ++ rs

theorem Says.refl (h : Hlc) : Says [] h h := ⟨rfl, by simp⟩

theorem Says.trans {rs qs : List TxRecord} {h k l : Hlc} (a : Says rs h k) (b : Says qs k l) : Says (rs ++ qs) h l := by
  refine ⟨?_, by rw [b.replies, a.replies, List.append_assoc]⟩
  rw [b.only, a.only]

/-- A notice that is neither coalesced one joins and stays. -/
theorem enqueue_says {r : TxRecord} (h : Hlc) (hs : r.isSnapshot = false) (hc : r.isStatusChange = false) :
    Says [r] h (h.enqueue r) := by
  refine ⟨?_, ?_⟩
  · rw [Hlc.enqueue_eq]
  · simp [replies, outgoing_enqueue, hs, hc]

theorem setChanges_says (ms : List Matter) (h : Hlc) : Says [] h { h with changes := ms } := ⟨rfl, by simp [replies, outgoing]⟩

/-- A coalesced notice withdraws those of its kind, and is no reply. -/
theorem replaceNotice_says {keep : TxRecord → Bool} {r : TxRecord} (h : Hlc)
    (hkeep : ∀ q, (!q.isSnapshot && !q.isStatusChange) = true → keep q = true)
    (hr : (!r.isSnapshot && !r.isStatusChange) = false) :
    Says [] h ({ h with queue := h.queue.filter keep }.enqueue r) := by
  refine ⟨by rw [Hlc.enqueue_eq], ?_⟩
  have hfilter : (h.queue.filter keep).filter (fun q => !q.isSnapshot && !q.isStatusChange) =
      h.queue.filter fun q => !q.isSnapshot && !q.isStatusChange := by
    rw [List.filter_filter]
    refine List.filter_congr fun q _ => ?_
    cases hq : (!q.isSnapshot && !q.isStatusChange) with
    | true => simp [hkeep q hq]
    | false => rfl
  simp only [replies, outgoing_enqueue, List.filter_append]
  simp only [outgoing, List.filter_append, hfilter, List.filter_cons, hr, List.filter_nil]
  simp

theorem send_says {r : TxRecord} (s : State) (hs : r.isSnapshot = false) (hc : r.isStatusChange = false) :
    Says [r] s.hlc (send r s).hlc := enqueue_says s.hlc hs hc

theorem refuse_says (k : Byte) (r : Reason) (s : State) : Says [.refused k r] s.hlc (refuse k r s).hlc :=
  send_says s rfl rfl

theorem markIf_says (b : Bool) (m : Matter) (s : State) : Says [] s.hlc (markIf b m s).hlc := by
  cases b
  · exact .refl _
  · exact setChanges_says _ _

theorem sendStatusChange_says (s : State) : Says [] s.hlc (sendStatusChange s).hlc := by
  have h := replaceNotice_says (keep := fun r => !r.isStatusChange)
    (r := .statusChange (joinMatters ((s.hlc.queue.map TxRecord.changeSet).flatten) s.hlc.changes) (statusValues s))
    { s.hlc with changes := [] } (by simp) rfl
  exact (setChanges_says [] s.hlc).trans h

theorem setMirror_says {h : Hlc} {s : State} (m : MirrorState) (e : s.hlc = h) : Says [] h (setMirror m s).hlc := by
  subst e
  exact markIf_says _ _ { s with dsr := { s.dsr with mirror := m } }

theorem sendSnapshot_says (s : State) : Says [] s.hlc (sendSnapshot s).hlc := by
  have h := replaceNotice_says (keep := fun r => !r.isSnapshot)
    (r := .snapshot s.dsr.list s.dsr.overflow (telltales s.dsr.list)) s.hlc (by simp +contextual) rfl
  unfold sendSnapshot
  exact h.trans (setMirror_says _ rfl)

theorem reevaluate_says (before : ListView) (s : State) : Says [] s.hlc (reevaluate before s).hlc := by
  unfold reevaluate
  simp only
  split
  · exact sendSnapshot_says { s with flt := (rebuildList s.params s.flt s.dsr).1,
                                     dsr := (rebuildList s.params s.flt s.dsr).2 }
  · exact .refl _

theorem handOverWith_says (owned : List DisplayEntry → List DisplayEntry) (es : List FltEffect) (s : State) :
    Says [] s.hlc (handOverWith owned es s).hlc := by
  have h : (reportActivations es s).hlc = s.hlc := by rw [reportActivations_eq]
  unfold handOverWith
  have hr := reevaluate_says (listView s.dsr) (setList (owned
    ((retireEntries (lingerStart (reportActivations es s)) es (reportActivations es s).dsr.list).map
      (syncEntry (reportActivations es s).flt.records))) (reportActivations es s))
  rw [setList_hlc, h] at hr
  exact hr

theorem commitFaults_says (f : Flt) (s : State) : Says [] s.hlc (commitFaults f s).hlc := by
  have h : ∀ (a b c : Bool) (i j k : Matter) (u : State), u.hlc = s.hlc →
      Says [] s.hlc (markIf c k (markIf b j (markIf a i u))).hlc := fun a b c i j k u e =>
    e ▸ ((markIf_says a i u).trans (markIf_says b j _)).trans (markIf_says c k _)
  unfold commitFaults
  exact h _ _ _ _ _ _ _ rfl

theorem onFaults_says (op : Flt → FltStep) (s : State) : Says [] s.hlc (onFaults op s).hlc :=
  (commitFaults_says _ s).trans (handOverWith_says _ _ _)

theorem refreshLines_says (s : State) : Says [] s.hlc (refreshLines s).hlc := .refl _

theorem finish_says (s : State) : Says [] s.hlc (finish s).hlc := by
  unfold finish
  simp only
  split
  · exact (refreshLines_says s).trans (sendStatusChange_says _)
  · exact refreshLines_says s

theorem endCapture_says (r : ServiceResult) (s : State) :
    Says [.serviceDone .commission (.subject (s.svc.capture.elim Subject.remainder (·.target))) r none]
      s.hlc (endCapture r s).hlc := enqueue_says s.hlc rfl rfl

/-! ### The end of a request in a part that listens -/

theorem Listening.wake {s : State} (h : Listening s) : s.pwc.wake = false := by
  obtain ⟨-, -, -, hp, -, -, -, -, hw⟩ := h
  rw [hw, wakeDue, hp]
  rfl

/-- In ACTIVE WAKE is negated. -/
theorem finish_pwc_active {u : State} (ha : u.pwc.power = .active) (hw : u.pwc.wake = false) :
    (finish u).pwc = u.pwc := by
  have hd : wakeDue u = false := by simp [wakeDue, ha]
  rw [finish_pwc, hd, ← hw]

theorem ttfbDue_congr {s u : State} (hp : u.pwc.power = s.pwc.power) (hf : u.flt.records = s.flt.records)
    (hm : u.dsr.mirror = s.dsr.mirror) (hs : u.hlc.silent = s.hlc.silent) : ttfbDue u = ttfbDue s := by
  unfold ttfbDue
  rw [hp, hf, hm, hs]

/-- TTFB stands as it stood where nothing it looks at has changed. -/
theorem finish_dsr_same {s u : State} (hl : LinesLaw s) (hp : u.pwc.power = s.pwc.power)
    (hf : u.flt.records = s.flt.records) (hd : u.dsr = s.dsr) (hs : u.hlc.silent = s.hlc.silent) :
    (finish u).dsr = s.dsr := by
  have ht := ttfbDue_congr hp hf (congrArg Dsr.mirror hd) hs
  rw [finish_dsr, ht, hd, ← hl.1]

/-- After an event's end in ACTIVE, with no wake in hand, no change is left to report. -/
theorem finish_changes_active {u : State} (ha : u.pwc.power = .active) (hw : waking u = false) :
    (finish u).hlc.changes = [] := by
  by_cases h : u.hlc.changes = []
  · rw [finish_quiet u h]; exact h
  · rw [finish_reports u ha hw h, sendStatusChange_changes]

/-- What a request that is answered leaves of the Host Link Controller. -/
theorem Listening.spoke {s u : State} {rs : List TxRecord} (h : Listening s)
    (hs : Says rs (restartSilence s).hlc u.hlc) (ha : u.pwc.power = .active) :
    Spoke s (finish u) ∧ replies (finish u).hlc = replies s.hlc ++ rs := by
  obtain ⟨-, -, -, -, ⟨hpr, hb, -⟩, -, -, -⟩ := h
  have hw : waking u = false := by
    rw [waking, hs.only]
    simp [restartSilence, hpr, hb]
  refine ⟨?_, ?_⟩
  · unfold Spoke
    have hall := (hs.trans (finish_says u)).only
    rw [finish_changes_active ha hw] at hall
    exact hall
  · rw [(finish_says u).replies, List.append_nil, hs.replies]
    rfl

/-- A request the tests pass, in a part that listens: its event is its owner's work and the end of it. -/
theorem Listening.passes {f : HostFrame} {owner : State → State} {s : State} {rs : List TxRecord} (h : Listening s)
    (hk : isHostKind f.kind = true) (hl : lengthGood f = true)
    (hv : serviceVerdict f.kind s.svc.mode s.svc.state = .pass)
    (hs : Says rs (restartSilence s).hlc (owner (restartSilence s)).hlc) :
    hostRecord f owner s = finish (owner (restartSilence s)) := by
  refine hostRecord_listening f owner s h hk hl hv ?_
  obtain ⟨-, -, -, -, ⟨-, hb, -⟩, -, -, -⟩ := h
  rw [hs.only]
  exact hb

/-- One that only replies. -/
theorem Listening.replies {f : HostFrame} {owner : State → State} {s : State} {r : TxRecord} (h : Listening s)
    (hk : isHostKind f.kind = true) (hl : lengthGood f = true)
    (hv : serviceVerdict f.kind s.svc.mode s.svc.state = .pass)
    (ho : owner (restartSilence s) = send r (restartSilence s)) : hostRecord f owner s = answered [r] s := by
  rw [hostRecord_listening f owner s h hk hl hv, ho, finish_send r s h]
  obtain ⟨-, -, -, -, ⟨-, hb, -⟩, -, -, -⟩ := h
  rw [ho]
  simpa using hb

theorem Listening.repliesAll {f : HostFrame} {owner : State → State} {s : State} {rs : List TxRecord} (h : Listening s)
    (hk : isHostKind f.kind = true) (hl : lengthGood f = true)
    (hv : serviceVerdict f.kind s.svc.mode s.svc.state = .pass)
    (ho : owner (restartSilence s) = sendAll rs (restartSilence s)) : hostRecord f owner s = answered rs s := by
  rw [hostRecord_listening f owner s h hk hl hv, ho, finish_sendAll rs s h]
  obtain ⟨-, -, -, -, ⟨-, hb, -⟩, -, -, -⟩ := h
  rw [ho, sendAll_eq]
  exact (foldl_enqueue_same rs (restartSilence s).hlc).2.2.1.trans hb

/-- The events whose end has nothing to report and leaves the lines as they stand. -/
theorem Listening.still {s u : State} (h : Listening s) (hc : u.hlc.changes = []) (hp : u.pwc.power = .active)
    (hw : u.pwc.wake = false) (hd : u.dsr = s.dsr) (hf : u.flt.records = s.flt.records)
    (hs : u.hlc.silent = s.hlc.silent) : finish u = u := by
  refine finish_still u hc ⟨?_, ?_⟩
  · obtain ⟨-, -, -, hps, -, -, -, hl⟩ := h
    rw [ttfbDue_congr (hp.trans hps.symm) hf (congrArg Dsr.mirror hd) hs, hd]
    exact hl.1
  · rw [hw, wakeDue, hp]
    rfl

end Sys2Proof.Machine
end


/-! ### The service table, the link's timers and the requests that read: O11, O16, O18 -/

section
/-!
PROOFS. What each service state makes of a request (O11), the two timers of the link (O16), and the indexed reads (O18).
-/
namespace Sys2Proof.Machine

/-! ### R154 by kind -/

theorem serviceVerdict_notInService {k : Byte} {mode : Bool} (st : ServiceState) (hm : mode = false)
    (hk : k.toNat ∈ [0x13, 0x14, 0x17, 0x19]) : serviceVerdict k mode st = .refused .notInService := by
  subst hm
  simp only [List.mem_cons, List.not_mem_nil, or_false] at hk
  rcases hk with h | h | h | h <;> simp [serviceVerdict, h]

theorem serviceVerdict_confirm_idle {k : Byte} (mode : Bool) (hk : k.toNat ∈ [0x15, 0x18]) :
    serviceVerdict k mode .idle = .refused .sequence := by
  simp only [List.mem_cons, List.not_mem_nil, or_false] at hk
  rcases hk with h | h <;> simp [serviceVerdict, h]

/-- While a block is written every other request is refused BUSY, those outside service mode apart. -/
theorem serviceVerdict_writing {k : Byte} {mode : Bool} (hk : k.toNat ∉ [0x01, 0x02, 0x20, 0x21])
    (hm : mode = true ∨ k.toNat ∉ [0x13, 0x14, 0x17, 0x19, 0x0D]) :
    serviceVerdict k mode .writing = .refused .busy := by
  simp only [List.mem_cons, List.not_mem_nil, or_false, not_or] at hk hm
  unfold serviceVerdict
  split <;> simp_all [otherRequest]

theorem serviceVerdict_capturing {k : Byte}
    (hk : k.toNat ∉ [0x01, 0x02, 0x20, 0x21, 0x12, 0x13, 0x15, 0x16]) :
    serviceVerdict k true .capturing = .breaks := by
  simp only [List.mem_cons, List.not_mem_nil, or_false, not_or] at hk
  unfold serviceVerdict
  split <;> simp_all [otherRequest]

theorem serviceVerdict_releasePending {k : Byte}
    (hk : k.toNat ∉ [0x01, 0x02, 0x20, 0x21, 0x12, 0x13, 0x18]) :
    serviceVerdict k true .releasePending = .breaks := by
  simp only [List.mem_cons, List.not_mem_nil, or_false, not_or] at hk
  unfold serviceVerdict
  split <;> simp_all [otherRequest]

/-- The frame of a request the Service Controller refuses. -/
theorem exec_serviceRefused {f : HostFrame} {s : State} {r : Reason} (h : Listening s) (hk : isHostKind f.kind = true)
    (hl : lengthGood f = true) (hv : serviceVerdict f.kind s.svc.mode s.svc.state = .refused r) :
    exec (commandOfFrame f) s = .next (answered [.refused f.kind r] s) := by
  obtain ⟨owner, ho⟩ := exec_commandOfFrame f
  rw [ho, hostRecord_refused f owner s r h (.inr ⟨linkRefusal_none hk hl, hv⟩)]

/-- The frame of a request that breaks an operation: the refusal and what the broken operation leaves. -/
theorem exec_breaks {f : HostFrame} {s t : State} (h : Listening s) (hk : isHostKind f.kind = true)
    (hl : lengthGood f = true) (hv : serviceVerdict f.kind s.svc.mode s.svc.state = .breaks)
    (ht : breakOperation (refuse f.kind .sequence (restartSilence s)) = t)
    (hb : t.hlc.buffer = none) (hc : t.hlc.changes = []) (hp : t.pwc = s.pwc) (hd : t.dsr = s.dsr)
    (hf : t.flt = s.flt) (hm : t.params = s.params) (hs : t.hlc.silent = s.hlc.silent) :
    exec (commandOfFrame f) s = .next t := by
  obtain ⟨owner, ho⟩ := exec_commandOfFrame f
  refine (ho s).trans (congrArg Host.Outcome.next (hostRecord_still h ?_ hb hc hp hd hf hm hs))
  have hactive : (restartSilence s).pwc.power = .active := h.2.2.2.1
  simp only [answer, hactive, linkRefusal_none hk hl]
  have hv' : serviceVerdict f.kind (restartSilence s).svc.mode (restartSilence s).svc.state = .breaks := hv
  rw [hv']
  exact ht

/-- Settles O11: R154's table by kind, mode and state. -/
theorem requestsDuringAServiceOperation : Obligations.RequestsDuringAServiceOperation := by
  intro f s h hk hl
  have hc := h.2.2.2.2.2.2.1
  have hb := h.2.2.2.2.1.2.1
  refine ⟨fun hm hn => ?_, fun hi hn => ?_, fun hw hn hm => ?_, fun k hs hm hcap hn => ?_, fun r hs hm hrel hn => ?_⟩
  · exact exec_serviceRefused h hk hl (serviceVerdict_notInService _ hm hn)
  · exact exec_serviceRefused h hk hl (hi ▸ serviceVerdict_confirm_idle _ hn)
  · exact exec_serviceRefused h hk hl (hw ▸ serviceVerdict_writing hn hm)
  · refine exec_breaks h hk hl (by rw [hm, hs, serviceVerdict_capturing hn]) ?_ ?_ ?_ rfl rfl rfl rfl ?_
    · simp only [breakOperation, refuse, send, restartSilence, hs, endCapture, hcap, Option.elim_some]
      rfl
    · simpa [answered] using hb
    · simpa [answered] using hc
    · simp [answered]
  · refine exec_breaks h hk hl (by rw [hm, hs, serviceVerdict_releasePending hn]) ?_ ?_ ?_ rfl rfl rfl rfl ?_
    · simp only [breakOperation, refuse, send, restartSilence, hs, endRelease, hrel, Option.elim_some]
      rfl
    · simpa [answered] using hb
    · simpa [answered] using hc
    · simp [answered]

/-! ### The two timers of the link (R171, R172) -/

/-- The word stale leaves an event's work so. -/
theorem becomeStale_circuit (s : State) (c : Circuit) :
    (becomeStale s).sfe.circuits.get c = staleCircuit (s.sfe.circuits.get c) := by
  simp [becomeStale]

theorem becomeStale_jge (s : State) :
    (becomeStale s).jge = { s.jge with watches := (becomeStale s).jge.watches } := by
  simp [becomeStale, disarmWatches, setWatches]

@[simp] theorem becomeStale_now (s : State) : (becomeStale s).now = s.now := by
  simp [becomeStale]

theorem becomeStale_watch (s : State) (c : Circuit) :
    (becomeStale s).jge.watches.get c = disarmWatch (s.jge.watches.get c) := by
  simp [becomeStale, disarmWatches, setWatches]

theorem setStale_hlc (b : Bool) (s : State) : (setStale b s).hlc = { s.hlc with
    stale := b, changes := if s.hlc.stale != b then addMatter .fwStale s.hlc.changes else s.hlc.changes } := by
  unfold setStale
  cases h : (s.hlc.stale != b)
  · rfl
  · rfl

/-- Settles O16: the event of each timer. -/
theorem theTwoTimersOfTheLink : Obligations.TheTwoTimersOfTheLink := by
  intro s hh ha
  refine ⟨fun hst => ⟨becomeStale (reach (s.hlc.lastTell + freshPeriod) s), ?_, becomeStale_now _, ?_, ?_, becomeStale_jge _, fun c =>
    ⟨becomeStale_watch _ c, (becomeStale_circuit _ c).trans ?_⟩, ?_⟩, fun d hd => ?_⟩
  · refine congrArg Host.Outcome.next ((event_released _ s hh).trans ?_)
    rw [if_pos ⟨ha, hst⟩]
  · refine (setStale_hlc true _).trans ?_
    simp [hst]
  · simp [becomeStale]
  · unfold staleCircuit enterPhase
    cases hp : (s.sfe.circuits.get c).phase <;> simp [hp]
  · exact OnlyChanges.of_fields (hnow := by simp) (hsfe := by simp) (hhlc := by simp) (hjge := by simp)
      (hfree := by simp [becomeStale]) (hparams := by simp [becomeStale]) (hclc := by simp [becomeStale])
      (hldt := by simp [becomeStale]) (hflt := by simp [becomeStale]) (hdsr := by simp [becomeStale])
      (hsvc := by simp [becomeStale]) (hstc := by simp [becomeStale]) (hpwc := by simp [becomeStale])
      (hpending := by simp [becomeStale])
  · refine congrArg Host.Outcome.next ((event_released _ s hh).trans ?_)
    simp only [hd, ha, if_true]
    rfl

/-! ### The indexed reads (R60, R121, R174, R74) -/

/-- Settles O18: each read is one reply. -/
theorem indexedReadsAnswer : Obligations.IndexedReadsAnswer := by
  intro a b s h hi
  have hv : ∀ k : Byte, serviceVerdict k s.svc.mode .idle = .pass → serviceVerdict k s.svc.mode s.svc.state = .pass :=
    fun k hk => hi ▸ hk
  refine ⟨?_, ?_, ?_, ?_⟩
  · refine congrArg Host.Outcome.next (h.replies rfl rfl (hv _ rfl) ?_)
    by_cases hn : 27 < a.toNat
    · exact (if_pos hn).trans (congrArg (send · _) (if_pos hn).symm)
    · refine (if_neg hn).trans (.trans ?_ (congrArg (send · _) (if_neg hn).symm))
      by_cases hw : s.stc.writing = some (if a.toNat < 12 then .loadsA else .loadsB)
      · exact (if_pos hw).trans (congrArg (send · _) (if_pos hw).symm)
      · exact (if_neg hw).trans (congrArg (send · _) (if_neg hw).symm)
  · refine congrArg Host.Outcome.next (h.replies rfl rfl (hv _ rfl) ?_)
    by_cases hn : 31 < a.toNat
    · exact (if_pos hn).trans (congrArg (send · _) (if_pos hn).symm)
    · exact (if_neg hn).trans (congrArg (send · _) (if_neg hn).symm)
  · refine congrArg Host.Outcome.next (h.replies rfl rfl (hv _ rfl) ?_)
    have hread : ∀ a b u, u = restartSilence s → answerReadParam a b u =
        send (match paramValue s.params a b with
          | none => .refused 0x09 .range
          | some v => .readParam a b v (paramValue (storedParams s.stc) a b != some v)) u := by
      rintro a b u rfl
      simp only [answerReadParam, show (restartSilence s).params = s.params from rfl]
      cases paramValue s.params a b <;> rfl
    exact hread a.toNat b.toNat _ rfl
  · refine congrArg Host.Outcome.next (h.replies rfl rfl (hv _ rfl) ?_)
    by_cases hn : 31 < a.toNat
    · exact (if_pos hn).trans (congrArg (send · _) (if_pos hn).symm)
    · exact (if_neg hn).trans (congrArg (send · _) (if_neg hn).symm)

end Sys2Proof.Machine
end


/-! ### The requests whose reply says all they do: O20 in part, O23, O25 to O27, O29, O30, O32 in part -/

section
/-!
PROOFS. A request whose owner leaves a state known in full: its reply, its own block, and nothing else.
-/
namespace Sys2Proof.Machine

/-- A request the tests pass, whose owner's work is known in full and writes neither a record nor the display. -/
theorem Listening.gives {f : HostFrame} {owner : State → State} {s u : State} (h : Listening s) (rs : List TxRecord)
    (hk : isHostKind f.kind = true) (hl : lengthGood f = true)
    (hv : serviceVerdict f.kind s.svc.mode s.svc.state = .pass) (ho : owner (restartSilence s) = u)
    (hh : u.hlc = (answered rs s).hlc := by rfl) (hd : u.dsr = s.dsr := by rfl) (hf : u.flt = s.flt := by rfl)
    (hp : u.pwc.power = s.pwc.power := by rfl) (hw : u.pwc.wake = s.pwc.wake := by rfl) :
    hostRecord f owner s = u := by
  have hwake := h.wake
  obtain ⟨-, -, -, hpw, ⟨-, hb, -⟩, -, hc, hlines⟩ := id h
  have hq : u.hlc.buffer = none ∧ u.hlc.changes = [] ∧ u.hlc.silent = s.hlc.silent := by
    rw [hh]
    have hsame := foldl_enqueue_same rs { s.hlc with silence := some (s.now + silencePeriod) }
    obtain ⟨hch, hsil, hbuf, -⟩ := hsame
    exact ⟨hbuf.trans hb, hch.trans hc, hsil⟩
  rw [hostRecord_listening f owner s h hk hl hv (by rw [ho]; exact hq.1), ho]
  exact h.still hq.2.1 (hp.trans hpw) (hw.trans hwake) hd (congrArg Flt.records hf) hq.2.2

/-- Outside an operation every request passes, in service mode where it has to be (R154). -/
theorem verdict_idle {k : Byte} {v : Svc} (hi : v.state = .idle) (hk : serviceVerdict k v.mode .idle = .pass) :
    serviceVerdict k v.mode v.state = .pass := hi ▸ hk

theorem numberAt_two (a b h l : Byte) : numberAt [a, b, h, l] 2 2 = h.toNat * 256 + l.toNat := by
  simp [numberAt, bigEndian]

/-! ### STORE-CONFIG (R183, R185) -/

theorem spoiledCrc_ne (c : BitVec 16) : spoiledCrc c ≠ c := by
  intro h
  have hzero : (if Config.crcDamage c = 0 then 1#16 else Config.crcDamage c) = 0#16 :=
    (BitVec.xor_right_inj c).1 (h.trans (BitVec.xor_zero).symm)
  split at hzero <;> simp_all

/-- The CRC of a block being written does not match (R183; log 12). -/
theorem spoiled_good {α : Type} (bytes : α → List Byte) (x : α) : (Copy.spoiled bytes x).good bytes = false := by
  simp [Copy.good, Copy.spoiled, spoiledCrc_ne]

theorem askWrite_idle (b : StoreBlock) {s : State} (h : s.stc.writing = none) : askWrite b s = beginWrite b s := by
  simp [askWrite, h]

/-- A write asked for while another is in progress joins the queue once. -/
theorem askWrite_busy (b : StoreBlock) {s : State} {w : StoreBlock} (h : s.stc.writing = some w) :
    askWrite b s = { s with stc := { s.stc with
      queue := if b ∈ s.stc.queue then s.stc.queue else s.stc.queue ++ [b] } } := by
  have hask : askWrite b s = if b ∈ s.stc.queue then s
      else { s with stc := { s.stc with queue := s.stc.queue ++ [b] } } := by
    simp only [askWrite, h]
  rw [hask]
  split <;> rfl

/-- Two blocks asked for while a third is written. -/
theorem askWrite_two {b c : StoreBlock} (hbc : b ≠ c) {s : State} {w : StoreBlock} (h : s.stc.writing = some w) :
    askWrite c (askWrite b s) =
      { s with stc := { s.stc with queue := s.stc.queue ++ [b, c].filter fun x => decide (x ∉ s.stc.queue) } } := by
  rw [askWrite_busy b h, askWrite_busy (w := w) c (by exact h)]
  by_cases hb : b ∈ s.stc.queue <;> by_cases hc : c ∈ s.stc.queue <;> simp [hb, hc, hbc.symm]

/-- Settles O23: the reply, and the two blocks asked for. -/
theorem storeConfigAsksForTwoWrites : Obligations.StoreConfigAsksForTwoWrites := by
  intro s h hi
  have hv : serviceVerdict 0x0D s.svc.mode s.svc.state = .pass := by
    rcases hi with hi | hm
    · rw [hi]; cases s.svc.mode <;> rfl
    · rw [hm]; rfl
  refine ⟨fun hw => ⟨Copy.spoiled paramsBytes s.params, rfl, spoiled_good _ _, ?_⟩, fun b hw => ?_⟩
  · refine congrArg Host.Outcome.next (h.gives [.ok 0x0D] rfl rfl hv ?_)
    have hbegin : askWrite .config (send (.ok 0x0D) (restartSilence s)) =
        beginWrite .config (send (.ok 0x0D) (restartSilence s)) := askWrite_idle _ hw
    have hwrite : (beginWrite .config (send (.ok 0x0D) (restartSilence s))).stc.writing = some .config := rfl
    unfold answerStoreConfig
    rw [hbegin, askWrite_busy .rules hwrite]
    have hmap : (s.svc.write.map fun w => if w.block = .config then { w with begun := true } else w) =
        s.svc.write.map fun w => { w with begun := w.begun || w.block = .config } := by
      cases s.svc.write with
      | none => rfl
      | some w => by_cases hb : w.block = .config <;> simp [hb]
    rw [← hmap]
    rfl
  · exact congrArg Host.Outcome.next (h.gives [.ok 0x0D] rfl rfl hv (askWrite_two (by decide) hw))

/-! ### RESTART (R186) -/

theorem restartReplySent_iff {s : State} : restartReplySent s = true ↔ TxRecord.ok 0x0F ∉ outgoing s.hlc := by
  unfold restartReplySent
  generalize TxRecord.ok 0x0F = r
  simp [outgoing]

theorem execRestartReset_of {s : State} (hh : s.pwc.held = false) (hp : s.pwc.restartPending = true)
    (hq : TxRecord.ok 0x0F ∉ outgoing s.hlc) : exec .restartReset s = .next (doReset .restart false s) := by
  refine congrArg Host.Outcome.next ?_
  simp [hh, hp, restartReplySent_iff.2 hq]

theorem execRestartReset_waits {s : State} (hq : TxRecord.ok 0x0F ∈ outgoing s.hlc) :
    exec .restartReset s = .next s := by
  refine congrArg Host.Outcome.next (if_neg ?_)
  simp only [Bool.and_eq_true, restartReplySent_iff, not_and, not_not]
  exact fun _ => hq

theorem doReset_afterReset (cause : ResetCause) (held : Bool) (s : State) :
    AfterReset cause held s (doReset cause held s) := by
  refine ⟨fun c => ?_, ?_⟩
  · simp [doReset, Sfe.initial, CircuitSense.initial, Jge.initial]
  · and_intros <;> rfl

/-- Once a RESTART is accepted a frame waits in the buffer and is not taken (R186). -/
theorem exec_frame_restartPending {f : HostFrame} {s : State} (hh : s.pwc.held = false)
    (hr : s.pwc.restartPending = true) (he : s.pwc.standbyEntry = false) (hp : s.pwc.power = .active)
    (hfree : Free s.hlc) (hs : s.hlc.silent = false) (hc : s.hlc.changes = [])
    (hl : LinesLaw s) (ht : s.hlc.silence = some (s.now + silencePeriod)) :
    exec (commandOfFrame f) s =
      .next { s with hlc := { s.hlc with buffer := some { frame := f, cancelled := false, woke := false } } } := by
  obtain ⟨owner, ho⟩ := exec_commandOfFrame f
  obtain ⟨hpr, hb, hrc⟩ := hfree
  have hnew : isProcessed f s = false := by simp [isProcessed, hpr]
  have hhunt : huntAgain s = s := by simp only [huntAgain]; rw [← hrc]
  have hheard : heard (frameArrives s) = s := by
    simp [heard, frameArrives, hp, he, hs, restartSilence]
    rw [← hs, ← ht]
  have harrives : frameCompletes f s =
      { s with hlc := { s.hlc with buffer := some { frame := f, cancelled := false, woke := false } } } := by
    simp [frameCompletes, hhunt, hheard, bufferFrame, takeWaiting, takesFrames, hb, he, hp, hh, hr]
  have hstill : finish (frameCompletes f s) = frameCompletes f s := by
    rw [harrives]
    exact finish_still _ hc (LinesLaw_of_same hl rfl rfl rfl rfl rfl)
  rw [ho]
  simp only [hostRecord, hh, hnew, hstill]
  rw [harrives]
  simp [hpr]

/-- Settles O25: the refusal, the accepted request with what a reset and a frame then find, and the reset. -/
theorem restartWaitsForItsReply : Obligations.RestartWaitsForItsReply := by
  intro s
  refine ⟨fun h hi hb => ?_, fun h hi hw hq => ?_, fun hh hp hq => ⟨_, execRestartReset_of hh hp hq, doReset_afterReset _ _ _⟩⟩
  · refine congrArg Host.Outcome.next (h.gives [.refused 0x0F .busy] rfl rfl (verdict_idle hi rfl) ?_)
    refine if_pos ?_
    simpa [restartSilence, Option.isSome_iff_ne_none] using hb
  · refine ⟨{ answered [.ok 0x0F] s with pwc := { s.pwc with restartPending := true } },
      congrArg Host.Outcome.next (h.gives [.ok 0x0F] rfl rfl (verdict_idle hi rfl) (if_neg ?_)), rfl, ?_, ?_⟩
    · simp [restartSilence, hw, hq]
    · refine execRestartReset_waits ?_
      simp [answered, outgoing_enqueue]
    · intro f
      have hwake := h.wake
      obtain ⟨hh, hr, he, hpw, ⟨hpr, hbuf, hrc⟩, hs, hc, hl⟩ := h
      have hsil : (answered [.ok 0x0F] s).hlc.silent = s.hlc.silent := by simp [answered]
      refine exec_frame_restartPending hh rfl he hpw ?_ (hsil.trans hs) ?_ ⟨?_, ?_⟩ ?_
      · exact ⟨by simpa [answered] using hpr, by simpa [answered] using hbuf, by simpa [answered] using hrc⟩
      · simpa [answered] using hc
      · refine hl.1.trans (Eq.symm (ttfbDue_congr ?_ ?_ ?_ ?_)) <;> [rfl; rfl; rfl; exact hsil]
      · refine hwake.trans ?_
        simp [wakeDue, hpw]
      · simp [answered]

/-! ### CLEAR-WAKE (R194) -/

theorem WakeSet.isEmpty_eq (w : WakeSet) : w.isEmpty = decide (w = WakeSet.none) := by
  obtain ⟨a, b, c⟩ := w
  cases a <;> cases b <;> cases c <;> rfl

/-- The causes a code names are its bits (R198). -/
theorem wakeSetOf_bits {a : Byte} (h : a.toNat ≤ 7) : wakeSetOf a.toNat =
    some { fault := a.getLsbD 0, composition := a.getLsbD 1, supply := a.getLsbD 2 } := by
  have hbit : ∀ i, a.getLsbD i = decide (a.toNat / 2 ^ i % 2 = 1) := fun i => by
    rw [BitVec.getLsbD, Nat.testBit_eq_decide_div_mod_eq]
  rw [wakeSetOf, if_neg (by omega), hbit, hbit, hbit]
  simp

/-- Settles O26: the refusal, and the flags cleared. -/
theorem clearWakeClearsTheNamedFlags : Obligations.ClearWakeClearsTheNamedFlags := by
  intro a s h hi
  refine ⟨fun ha => ?_, fun ha => ⟨_, rfl, ?_⟩⟩
  · refine congrArg Host.Outcome.next (h.gives [.refused 0x10 .range] rfl rfl (verdict_idle hi rfl) ?_)
    have hnone : wakeSetOf a.toNat = none := if_pos ha
    change answerClearWake a.toNat (restartSilence s) = _
    simp only [answerClearWake, hnone]
    rfl
  · refine congrArg Host.Outcome.next (h.gives [_] rfl rfl (verdict_idle hi rfl) ?_)
    change answerClearWake a.toNat (restartSilence s) = _
    simp only [answerClearWake, wakeSetOf_bits ha, clearFlags, WakeSet.isEmpty_eq]
    simp only [decide_eq_true_eq]
    rfl

/-! ### CENSUS (R24, R25) -/

/-- The chain line after a census start (R19, R21, R25, R35). -/
def censusStarted (now : Nat) (k : Clc) : Clc :=
  { k with
    census := some { table := [], answered := 0, silent := 0, duplicates := 0, beyond := 0 }
    censusNumber := nextCensusNumber k.censusNumber, holdoff := none, pendingTrigger := false
    task := some .roll, line := .idle, visit := none, cycle := none
    cycleCounter := if k.cycle.isSome then (k.cycleCounter + 1) % 8 else k.cycleCounter
    lineBreak := if nextCensusNumber k.censusNumber = 1 then some (now + lineBreakTime) else none
    idleFrom := if nextCensusNumber k.censusNumber = 1 then now + lineBreakTime else cutIdleFrom now k }

theorem startCensus_started (s : State) :
    startCensus s = censusEndsCapture (setClc (censusStarted s.now s.clc) s) := by
  unfold startCensus
  simp only
  refine congrArg (fun k => censusEndsCapture (setClc k s)) ?_
  unfold censusStarted cutCycle abandonLine cutIdleFrom
  cases s.clc.cycle <;> rfl

/-- A census start outside CAPTURING touches the chain line alone. -/
theorem startCensus_alone {s : State} (h : s.svc.state ≠ .capturing) :
    startCensus s = setClc (censusStarted s.now s.clc) s :=
  (startCensus_started s).trans (censusEndsCapture_idle _ h)

theorem cutIdleFrom_eq (now : Nat) (k : Clc) : cutIdleFrom now k =
    match k.line with
    | .sending _ ends => max k.idleFrom (max now ends)
    | .window _ _ => max k.idleFrom now
    | .idle => if k.lineBreak = none then k.idleFrom else min k.idleFrom now := by
  unfold cutIdleFrom
  cases k.line with
  | idle => cases k.lineBreak <;> rfl
  | sending x e => rfl
  | window x e => rfl

/-- Settles O27: the refusal, and the census start. -/
theorem censusRequestStartsACensus : Obligations.CensusRequestStartsACensus := by
  intro s h hi
  refine ⟨fun run hr => ?_, fun hn => ⟨_, rfl, ?_⟩⟩
  · refine congrArg Host.Outcome.next (h.gives [.refused 0x03 .busy] rfl rfl (verdict_idle hi rfl) (if_pos ?_))
    simp [restartSilence, hr]
  · refine congrArg Host.Outcome.next (h.gives [.ok 0x03] rfl rfl (verdict_idle hi rfl) ?_)
    have ha : s.pwc.power = .active := by obtain ⟨-, -, -, hp, -⟩ := h; exact hp
    have htrigger : answerCensus (restartSilence s) = startCensus (send (.ok 0x03) (restartSilence s)) := by
      simp [answerCensus, triggerCensus, restartSilence, hn, ha]
    have hfree : (send (.ok 0x03) (restartSilence s)).svc.state ≠ .capturing := by
      simp [restartSilence, hi]
    rw [htrigger, startCensus_alone hfree]
    refine (congrArg (fun k => setClc k (send (.ok 0x03) (restartSilence s))) (?_ : censusStarted s.now s.clc = _))
    unfold censusStarted
    rw [cutIdleFrom_eq]
    rfl

end Sys2Proof.Machine
end


/-! ### The Service Controller's requests: O29 and O30 -/

section
/-!
PROOFS. Service mode (O29) and the begin of a capture (O30).
-/
namespace Sys2Proof.Machine

/-! ### Service mode (R151 to R153) -/

/-- Service mode off in a capture that has its record. -/
theorem serviceOff_capturing {s : State} {k : Capture} (h : s.svc.state = .capturing) (hk : s.svc.capture = some k) :
    serviceOff s = send (.serviceDone .commission (.subject k.target) .aborted none) { s with
      svc := { s.svc with
        mode := false, state := .idle, captureTimer := none, sticky := { s.svc.sticky with aborted := true } } } := by
  simp only [serviceOff, h, endCapture, hk]
  rfl

theorem serviceOff_releasePending {s : State} {r : Release} (h : s.svc.state = .releasePending)
    (hr : s.svc.release = some r) :
    serviceOff s = send (.serviceDone .release (.index r.index) .aborted none) { s with
      svc := { s.svc with
        mode := false, state := .idle, release := none, sticky := { s.svc.sticky with aborted := true } } } := by
  simp only [serviceOff, h, endRelease, hr]
  rfl

theorem serviceOff_idle {s : State} (h : s.svc.state = .idle) :
    serviceOff s = { s with svc := { s.svc with mode := false } } := by
  simp [serviceOff, h]

/-- Settles O29: each request by mode, line and state. -/
theorem serviceModeRequests : Obligations.ServiceModeRequests := by
  intro s h
  refine ⟨fun hi hl => ?_, fun hi hl => ?_, fun hi => ?_, fun k hs hk => ?_, fun r hs hr => ?_, fun hm hs => ?_⟩
  · exact congrArg Host.Outcome.next (h.gives [.ok 0x11] rfl rfl (verdict_idle hi rfl) (if_pos hl))
  · refine congrArg Host.Outcome.next (h.gives [.refused 0x11 .pin] rfl rfl (verdict_idle hi rfl) (if_neg ?_))
    simp [restartSilence, hl]
  · refine congrArg Host.Outcome.next (h.gives [.ok 0x12] rfl rfl (verdict_idle hi rfl) ?_)
    exact serviceOff_idle (s := send (.ok 0x12) (restartSilence s)) hi
  · refine congrArg Host.Outcome.next (h.gives [_, _] rfl rfl (by rw [hs]; rfl) ?_)
    exact serviceOff_capturing (s := send (.ok 0x12) (restartSilence s)) hs hk
  · refine congrArg Host.Outcome.next (h.gives [_, _] rfl rfl (by rw [hs]; rfl) ?_)
    exact serviceOff_releasePending (s := send (.ok 0x12) (restartSilence s)) hs hr
  · refine congrArg Host.Outcome.next (h.gives [.ok 0x13] rfl rfl ?_ rfl)
    simp [serviceVerdict, hm, hs]

/-! ### COMMISSION-BEGIN (R155) -/

/-- COMMISSION-BEGIN in service mode and out of an operation: its owner's work. -/
theorem exec_commissionBegin_refused {a b : Byte} {s : State} {r : Reason} (h : Listening s) (hi : s.svc.state = .idle)
    (hm : s.svc.mode = true) (ht : commissionTest a b s = .error r) :
    exec (.commissionBegin [a, b]) s = .next (answered [.refused 0x14 r] s) := by
  refine congrArg Host.Outcome.next (h.gives [.refused 0x14 r] rfl rfl (by rw [hi, hm]; rfl) ?_)
  have ht' : commissionTest a b (restartSilence s) = .error r := ht
  change answerCommissionBegin a b (restartSilence s) = _
  simp only [answerCommissionBegin, ht']
  rfl

theorem exec_commissionBegin_accepted {a b : Byte} {s : State} {k : Capture} (h : Listening s)
    (hi : s.svc.state = .idle) (hm : s.svc.mode = true) (ht : commissionTest a b s = .ok k) :
    exec (.commissionBegin [a, b]) s = .next { answered [.commissionBegin k.index] s with
      svc := { s.svc with
        state := .capturing, captureTimer := some (s.now + captureTime), capture := some k } } := by
  refine congrArg Host.Outcome.next (h.gives [.commissionBegin k.index] rfl rfl (by rw [hi, hm]; rfl) ?_)
  have ht' : commissionTest a b (restartSilence s) = .ok k := ht
  change answerCommissionBegin a b (restartSilence s) = _
  simp only [answerCommissionBegin, ht']
  rfl

/-- With no error set, a subject, a set and no census, what is left to test is the entry. -/
theorem commissionTest_begin {a b : Byte} {s : State} {t : Subject} (hs : s.svc.sticky = Sticky.none)
    (ht : subjectOf a = some t) (hb : b ≠ 0) (hn : s.clc.census = none) :
    commissionTest a b s = beginCapture s t b := by
  have hany : anySticky s.svc.sticky = false := by rw [hs]; rfl
  simp only [commissionTest, hany, ht, hn, hb]
  rfl

theorem mem_allCircuits (c : Circuit) : c ∈ allCircuits := by
  revert c
  decide

theorem omitsLamp_iff (x : Slot) (set : CircuitSet) :
    omitsLamp x set = true ↔ ∃ c : Circuit, 1 ≤ x.lamps.get c ∧ set.getLsbD c.val = false := by
  simp only [omitsLamp, List.any_eq_true, Bool.and_eq_true, decide_eq_true_eq, Bool.not_eq_true']
  exact ⟨fun ⟨c, _, hc⟩ => ⟨c, hc⟩, fun ⟨c, hc⟩ => ⟨c, mem_allCircuits c, hc⟩⟩

/-- Settles O30: the tests in their order, each with its answer, and the capture. -/
theorem commissionBeginStartsACapture : Obligations.CommissionBeginStartsACapture := by
  intro a b s h hi hm
  refine ⟨fun hs => exec_commissionBegin_refused h hi hm (if_pos hs), fun hs => ?_⟩
  have hany : anySticky s.svc.sticky = false := by rw [hs]; rfl
  refine ⟨fun ht => exec_commissionBegin_refused h hi hm ?_, fun target ht hb => ⟨fun hc => ?_, fun hc he => ?_, fun i e hc hi' he => ?_⟩⟩
  · simp only [commissionTest, hany]
    rcases ht with ht | ht
    · simp [ht]
    · cases subjectOf a <;> simp [ht]
  · refine exec_commissionBegin_refused h hi hm ?_
    simp only [commissionTest, hany, ht, hb, hc]
    rfl
  · refine exec_commissionBegin_refused h hi hm ((commissionTest_begin hs ht hb hc).trans ?_)
    unfold beginCapture
    cases hx : servingIndex s.ldt target with
    | none => rfl
    | some i => rw [hx] at he; simp only [Option.bind_some] at he; simp [he]
  · have hbegin := commissionTest_begin hs ht hb hc
    refine ⟨?_, ?_, ?_, ?_⟩
    · rintro n x rfl hx
      have htest : commissionTest a b s =
          if x.state ≠ .present then .error .state
          else if e.lock = .commissioned then .error .locked
          else if omitsLamp x b then .error .range
          else .ok (newCapture (.slot n) x.identity i b) := by
        simp only [hbegin, beginCapture, hi', he, hx]
      refine ⟨fun hp => ?_, fun hp hl => ?_, fun hp hl hlamp => ?_, fun hp hl hlamp => ?_⟩
      · exact exec_commissionBegin_refused h hi hm (htest.trans (if_pos hp))
      · exact exec_commissionBegin_refused h hi hm (by simp [htest, hp, hl])
      · exact exec_commissionBegin_refused h hi hm (by simp [htest, hp, hl, (omitsLamp_iff x b).2 hlamp])
      · have hno : omitsLamp x b = false := by
          rw [Bool.eq_false_iff]
          intro ho
          obtain ⟨c, hc1, hc2⟩ := (omitsLamp_iff x b).1 ho
          exact absurd (hlamp c hc1) (Bool.eq_false_iff.1 hc2)
        exact exec_commissionBegin_accepted (k := newCapture (.slot n) x.identity i b) h hi hm
          (by simp [htest, hp, hl, hno])
    · rintro n rfl hx
      exact exec_commissionBegin_refused h hi hm (by simp only [hbegin, beginCapture, hi', he, hx])
    · rintro rfl hl
      refine exec_commissionBegin_refused h hi hm ?_
      simp only [hbegin, beginCapture, hi', he, if_pos hl]
    · rintro sig rfl hkey hl
      refine exec_commissionBegin_accepted (k := newCapture .remainder (BitVec.ofNat 48 sig.length) i b) h hi hm ?_
      simp [hbegin, beginCapture, hi', he, hl, hkey]

end Sys2Proof.Machine
end


/-! ### What a hand-over leaves: O28 and O33 -/

section
/-!
PROOFS. The records and the list after a removal of records, and the requests that remove them: RELEARN (O28) and
CLEAR-FAULTS (O33).
-/
namespace Sys2Proof.Machine

/-! ### A hand-over in ACTIVE -/

theorem handOverWith_pwc_active (owned : List DisplayEntry → List DisplayEntry) (es : List FltEffect) {s : State}
    (ha : s.pwc.power = .active) : (handOverWith owned es s).pwc = s.pwc := by
  have hr : reportActivations es s = s := reportActivations_awake es s (by simp [ha])
  unfold handOverWith
  simp only
  rw [hr, reevaluate_eq]
  rfl

/-- The entries a hand-over brings to the re-evaluation, before the event's own work on them. -/
def handedList (es : List FltEffect) (s : State) : List DisplayEntry :=
  (retireEntries (lingerStart s) es s.dsr.list).map (syncEntry s.flt.records)

theorem handOverWith_active (owned : List DisplayEntry → List DisplayEntry) (es : List FltEffect) {s : State}
    (ha : s.pwc.power = .active) :
    handOverWith owned es s = reevaluate (listView s.dsr) (setList (owned (handedList es s)) s) := by
  have hr : reportActivations es s = s := reportActivations_awake es s (by simp [ha])
  unfold handOverWith
  simp only
  rw [hr]
  rfl

/-- Bringing entries to their records changes no RESOLVED one (R129). -/
theorem syncEntry_live (records : List (Option FaultRecord)) (e : DisplayEntry) :
    (syncEntry records e).live = e.live := by
  unfold syncEntry
  split
  · rename_i hl
    split
    · split
      · rfl
      · refine Eq.trans ?_ hl.symm
        simp only [DisplayEntry.live, shownState]
        split <;> rfl
    · rfl
  · rfl

theorem syncEntry_resolved {records : List (Option FaultRecord)} {e : DisplayEntry} (h : e.live = false) :
    syncEntry records e = e := by
  simp [syncEntry, h]

theorem map_syncEntry_resolved (records : List (Option FaultRecord)) (list : List DisplayEntry) :
    (list.map (syncEntry records)).filter (fun e => !e.live) = list.filter fun e => !e.live := by
  induction list with
  | nil => rfl
  | cons e list ih =>
    cases h : e.live with
    | true => simpa [syncEntry_live, h] using ih
    | false => simpa [syncEntry_live, h, syncEntry_resolved h] using ih

/-- An entry leaves with a record removed not HEALED only while it is live (R131). -/
theorem filterMap_retireEntry_resolved (timer : Countdown) (r : FaultRecord) (list : List DisplayEntry) :
    (list.filterMap (retireEntry timer r false)).filter (fun e => !e.live) = list.filter fun e => !e.live := by
  induction list with
  | nil => rfl
  | cons e list ih =>
    by_cases h : (e.live && decide (r.entryId = some e.id)) = true
    · have hl : e.live = true := by simp_all
      have hk : retireEntry timer r false e = none := by simp only [retireEntry, if_pos h]; rfl
      simpa [hk, hl] using ih
    · have hk : retireEntry timer r false e = some e := by simp only [retireEntry, if_neg h]
      cases hl : e.live with
      | true => simpa [hk, hl] using ih
      | false => simpa [hk, hl] using ih

theorem retireEntries_resolved (timer : Countdown) (rs : List FaultRecord) (list : List DisplayEntry) :
    (retireEntries timer (rs.map fun r => .removed r false) list).filter (fun e => !e.live) =
      list.filter fun e => !e.live := by
  unfold retireEntries
  induction rs generalizing list with
  | nil => rfl
  | cons r rs ih =>
    rw [List.map_cons, List.foldl_cons, ih]
    exact filterMap_retireEntry_resolved timer r list

/-! ### Records removed by a test (R115, R117) -/

/-- A test that does not look at the entry id removes the same records from the contents. -/
theorem removeWhere_contents {t : FaultRecord → Bool} (ht : ∀ r : FaultRecord, t r.content = t r) (b : Bool) (f : Flt) :
    recordContents (removeWhere t b f).1 = (recordContents f).map fun o => o.filter fun r => !t r := by
  simp only [recordContents, removeWhere_records, List.map_map]
  refine List.map_congr_left fun o _ => ?_
  cases o with
  | none => rfl
  | some r => cases h : t r <;> simp [without, Option.filter, ht, h]

theorem removeWhere_activation (t : FaultRecord → Bool) (b : Bool) (f : Flt) :
    (removeWhere t b f).1.activation = f.activation := by
  unfold removeWhere
  simp only
  split
  · rfl
  · rfl

/-- What every removal tells: its records, each not HEALED. -/
theorem removeWhere_effects (t : FaultRecord → Bool) (f : Flt) :
    (removeWhere t false f).2 = (recordsWhere t f).map fun r => .removed r false := by
  unfold removeWhere
  simp only
  split
  · rename_i h
    rw [List.isEmpty_iff.1 h]
    rfl
  · rfl

/-- The records that satisfy a test removed, with the hand-over and the event's own work on the list. -/
def forget (t : FaultRecord → Bool) (owned : List DisplayEntry → List DisplayEntry) (s : State) : State :=
  handOverWith owned (removeWhere t false s.flt).2 (commitFaults (removeWhere t false s.flt).1 s)

section
variable {t : FaultRecord → Bool} {owned : List DisplayEntry → List DisplayEntry} {s : State}

theorem forget_says (t : FaultRecord → Bool) (owned : List DisplayEntry → List DisplayEntry) (s : State) :
    Says [] s.hlc (forget t owned s).hlc :=
  (commitFaults_says _ s).trans (handOverWith_says _ _ _)

theorem forget_eq (t : FaultRecord → Bool) (owned : List DisplayEntry → List DisplayEntry) (s : State)
    (ha : s.pwc.power = .active) : forget t owned s =
      { s with flt := (forget t owned s).flt, dsr := (forget t owned s).dsr, hlc := (forget t owned s).hlc } := by
  have hp : (forget t owned s).pwc = s.pwc := by
    unfold forget
    rw [handOverWith_pwc_active _ _ (by simpa using ha)]
    simp
  refine Eq.trans ?_ (congrArg (fun p => ({ s with
    flt := (forget t owned s).flt, dsr := (forget t owned s).dsr, hlc := (forget t owned s).hlc, pwc := p } : State)) hp)
  unfold forget
  rw [handOverWith_eq]
  simp

theorem forget_contents (ht : ∀ r : FaultRecord, t r.content = t r) (owned : List DisplayEntry → List DisplayEntry)
    (s : State) :
    recordContents (forget t owned s).flt = (recordContents s.flt).map fun o => o.filter fun r => !t r := by
  unfold forget
  rw [handOverWith_contents, ← removeWhere_contents ht, commitFaults_flt]
  rfl

theorem forget_activation (t : FaultRecord → Bool) (owned : List DisplayEntry → List DisplayEntry) (s : State) :
    (forget t owned s).flt.activation = s.flt.activation := by
  unfold forget
  rw [handOverWith_flt, commitFaults_flt]
  exact removeWhere_activation t false s.flt

/-- The list is rebuilt over the records left, from entries whose RESOLVED ones are those the event leaves. -/
theorem forget_list (t : FaultRecord → Bool) (owned : List DisplayEntry → List DisplayEntry) (s : State)
    (ha : s.pwc.power = .active) :
    ∃ f mid, (forget t owned s).dsr.list = (rebuildList s.params f { s.dsr with list := owned mid }).2.list ∧
      recordContents f = recordContents (forget t owned s).flt ∧
      mid.filter (fun e => !e.live) = s.dsr.list.filter fun e => !e.live := by
  refine ⟨(commitFaults (removeWhere t false s.flt).1 s).flt,
    handedList (removeWhere t false s.flt).2 (commitFaults (removeWhere t false s.flt).1 s), ?_, ?_, ?_⟩
  · unfold forget
    rw [handOverWith_active _ _ (by simpa using ha), reevaluate_list]
    simp [setList]
  · exact (handOverWith_contents _ _ _).symm
  · rw [handedList, map_syncEntry_resolved, removeWhere_effects, retireEntries_resolved]
    simp

end

/-! ### The entries a re-evaluation leaves -/

theorem entryOf_live (p : Params) (id : Nat) (r : FaultRecord) : (entryOf p id r).live = true := by
  simp only [DisplayEntry.live, entryOf, shownState]
  split <;> rfl

theorem placeCandidate_entries (p : Params) (old : List DisplayEntry) (kept : List Nat) (b : Rebuild) (k : Candidate) :
    ∃ es : List DisplayEntry, (placeCandidate p old kept b k).entries = b.entries ++ es ∧
      ∀ e ∈ es, e.live = false → e ∈ old := by
  unfold placeCandidate
  split
  · split
    · rename_i e he
      exact ⟨[e], rfl, fun x hx _ => by simp only [List.mem_singleton] at hx; exact hx ▸ List.mem_of_find?_eq_some he⟩
    · exact ⟨[], by simp, by simp⟩
  · split
    · exact ⟨[], by simp, by simp⟩
    · rename_i r hr
      split
      · rename_i id hid
        split
        · rename_i e he
          refine ⟨[{ e with severity := recordSeverity p r }], rfl, fun x hx hl => ?_⟩
          have hlive := List.find?_some he
          simp_all [DisplayEntry.live]
        · refine ⟨[entryOf p id r], rfl, fun x hx hl => ?_⟩
          simp only [List.mem_singleton] at hx
          simp [hx, entryOf_live] at hl
      · refine ⟨[entryOf p _ r], rfl, fun x hx hl => ?_⟩
        simp only [List.mem_singleton] at hx
        simp [hx, entryOf_live] at hl

/-- A RESOLVED entry of the rebuilt list stood in the list before it (R127). -/
theorem rebuildList_resolved {p : Params} {f : Flt} {d : Dsr} {e : DisplayEntry}
    (he : e ∈ (rebuildList p f d).2.list) (hl : e.live = false) : e ∈ d.list := by
  have key : ∀ (kept : List Nat) (ks : List Candidate) (b : Rebuild),
      e ∈ (ks.foldl (placeCandidate p d.list kept) b).entries → e ∈ b.entries ∨ e ∈ d.list := by
    intro kept ks
    induction ks with
    | nil => exact fun b h => .inl h
    | cons k ks ih =>
      intro b h
      obtain ⟨es, hes, hold⟩ := placeCandidate_entries p d.list kept b k
      rcases ih _ h with h | h
      · rw [hes, List.mem_append] at h
        exact h.imp id fun h => hold e h hl
      · exact .inr h
  rcases key _ _ _ he with h | h
  · cases h
  · exact h

/-! ### What each operation leaves as it was -/

theorem restartSilence_only (s : State) : OnlyChanges [.hlc] s (restartSilence s) :=
  .of_fields

theorem send_only (r : TxRecord) (s : State) : OnlyChanges [.hlc] s (send r s) := .of_fields

theorem setLdt_only (t : Ldt) (s : State) : OnlyChanges [.ldt] s (setLdt t s) := by
  intro b hb
  cases b <;> simp_all [Same, setLdt]

theorem forget_only (t : FaultRecord → Bool) (owned : List DisplayEntry → List DisplayEntry) {s : State}
    (ha : s.pwc.power = .active) : OnlyChanges [.flt, .dsr, .hlc] s (forget t owned s) := by
  rw [forget_eq t owned s ha]
  intro b hb
  cases b <;> simp_all [Same]

/-- The end of an event in ACTIVE writes the display's line and the Host Link Controller. -/
theorem finish_only_active {u : State} (ha : u.pwc.power = .active) (hw : u.pwc.wake = false) :
    OnlyChanges [.dsr, .hlc] u (finish u) :=
  .of_fields (hpwc := fun _ => finish_pwc_active ha hw)

/-- A request the tests pass, whose owner moves the transmit queue and blocks of its own: the event, its replies, and
what is left of the Host Link Controller. -/
theorem Listening.speaks {f : HostFrame} {owner : State → State} {s w : State} {rs : List TxRecord} (h : Listening s)
    (hk : isHostKind f.kind = true) (hl : lengthGood f = true)
    (hv : serviceVerdict f.kind s.svc.mode s.svc.state = .pass) (ho : owner (restartSilence s) = w)
    (hs : Says rs (restartSilence s).hlc w.hlc) (ha : w.pwc.power = .active) :
    hostRecord f owner s = finish w ∧ Machine.replies (finish w).hlc =
      Machine.replies s.hlc ++ rs ∧ Spoke s (finish w) := by
  obtain ⟨hspoke, hreplies⟩ := h.spoke hs ha
  exact ⟨(h.passes hk hl hv (by rw [ho]; exact hs)).trans (congrArg finish ho), hreplies, hspoke⟩

/-! ### CLEAR-FAULTS (R163, R117) -/

/-- The work of CLEAR-FAULTS: the reply, and the records gone. -/
def faultsCleared (s : State) : State :=
  clearFaults (send (.clearFaults (recordsWhere (fun r => r.kind != .nodeLost) s.flt).length) s)

theorem faultsCleared_only {s : State} (ha : s.pwc.power = .active) :
    OnlyChanges [.flt, .dsr, .hlc] s (faultsCleared s) :=
  ((send_only _ s).trans (forget_only _ _ ha)).mono (by simp)

/-- Settles O33: the count replied, and the removal. -/
theorem clearFaultsLeavesNodeLost : Obligations.ClearFaultsLeavesNodeLost := by
  intro s h hi hm
  have ha : (restartSilence s).pwc.power = .active := by obtain ⟨-, -, -, hp, -⟩ := h; exact hp
  have honly := (restartSilence_only s).trans (faultsCleared_only ha)
  have hpwc : (faultsCleared (restartSilence s)).pwc = s.pwc := honly .pwc (by simp)
  have ha' : (faultsCleared (restartSilence s)).pwc.power = .active := by rw [hpwc]; exact ha
  obtain ⟨hexec, hreplies, hspoke⟩ := h.speaks (f := { kind := 0x19, body := [] }) (owner := answerClearFaults)
    rfl rfl (by rw [hi, hm]; rfl) rfl ((send_says (restartSilence s) rfl rfl).trans (forget_says _ _ _)) ha'
  refine ⟨finish (faultsCleared (restartSilence s)), congrArg Host.Outcome.next hexec, hreplies, hspoke, ?_, ?_,
    fun e he => ?_, ?_⟩
  · rw [finish_flt]
    refine (forget_contents (fun r => rfl) _ _).trans (List.map_congr_left fun o _ => ?_)
    congr 1
    funext r
    cases r.kind <;> rfl
  · rw [finish_flt]
    exact forget_activation _ _ _
  · obtain ⟨f, mid, hlist, -, -⟩ := forget_list (fun r => r.kind != .nodeLost) (fun list => list.filter DisplayEntry.live)
      (send (.clearFaults (recordsWhere (fun r => r.kind != .nodeLost) s.flt).length) (restartSilence s)) ha
    rw [finish_dsr] at he
    intro hr
    have hl : e.live = false := by simp [DisplayEntry.live, hr]
    have hold := rebuildList_resolved (hlist ▸ he) hl
    simp [hl] at hold
  · exact (honly.trans (finish_only_active ha' (by rw [hpwc]; exact h.wake))).mono (by simp)

/-! ### RELEARN (R58, R59) -/

theorem exec_relearn_refused {a b : Byte} {s : State} {r : Reason} (h : Listening s) (hi : s.svc.state = .idle)
    (ht : relearnTarget a s = .error r) : exec (.relearn [a, b]) s = .next (answered [.refused 0x0C r] s) := by
  refine congrArg Host.Outcome.next (h.gives [.refused 0x0C r] rfl rfl (verdict_idle hi rfl) ?_)
  have ht' : relearnTarget a (restartSilence s) = .error r := ht
  change answerRelearn a b (restartSilence s) = _
  simp only [answerRelearn, ht']
  rfl

/-- With a subject and no census, what is left to test is the entry that serves it. -/
theorem relearnTarget_subject {a : Byte} {s : State} {t : Subject} (ht : subjectOf a = some t)
    (hn : s.clc.census = none) : relearnTarget a s =
      match servingIndex s.ldt t with
      | none => .error .state
      | some i =>
        match entryAt s.ldt i with
        | none => .error .state
        | some e => if e.lock = .commissioned then .error .locked else .ok (t, i) := by
  simp only [relearnTarget, ht, hn]
  rfl

theorem dropResolvedLamps_resolved (subject : Subject) (set : CircuitSet) (list : List DisplayEntry) :
    (dropResolvedLamps subject set list).filter (fun e => decide (e.state = .resolved)) =
      (list.filter fun e => !e.live).filter fun e =>
        decide (e.state = .resolved ∧ ¬ (e.kind ∈ [Kind.outage, .unitLost, .overload] ∧ e.subject = some subject ∧
          e.circuit.any (fun c => set.getLsbD c.val) = true)) := by
  unfold dropResolvedLamps
  rw [List.filter_filter, List.filter_filter]
  refine List.filter_congr fun e _ => ?_
  cases hs : e.state <;> simp [DisplayEntry.live, hs, isLampKind, Bool.and_assoc, Bool.or_assoc, imp_iff_not_or]

/-- The work of an accepted RELEARN. -/
def relearned (subject : Subject) (set : CircuitSet) (i : Nat) (s : State) : State :=
  removeLamps subject set (setLdt (editEntry i (relearnEntry set) s.ldt) (send (.relearn i set) s))

theorem relearned_only (subject : Subject) (set : CircuitSet) (i : Nat) {s : State} (ha : s.pwc.power = .active) :
    OnlyChanges [.ldt, .flt, .dsr, .hlc] s (relearned subject set i s) :=
  (((send_only _ s).trans (setLdt_only _ _)).trans (forget_only _ _ ha)).mono (by simp)

theorem relearned_says (subject : Subject) (set : CircuitSet) (i : Nat) (s : State) :
    Says [.relearn i set] s.hlc (relearned subject set i s).hlc :=
  (send_says s rfl rfl).trans
    (forget_says _ _ (setLdt (editEntry i (relearnEntry set) s.ldt) (send (.relearn i set) s)))

theorem editEntry_some {i : Nat} {e : Entry} {t : Ldt} (f : Entry → Entry) (h : entryAt t i = some e) :
    editEntry i f t = { t with entries := t.entries.set i (some (f e)) } := by
  simp [editEntry, setEntry, h]

theorem relearned_ldt (subject : Subject) (set : CircuitSet) {i : Nat} {s : State} {e : Entry}
    (ha : s.pwc.power = .active) (he : entryAt s.ldt i = some e) :
    (relearned subject set i s).ldt = { s.ldt with entries := s.ldt.entries.set i (some (relearnEntry set e)) } := by
  have hkeeps := forget_only (isLampOf subject set) (dropResolvedLamps subject set)
    (s := setLdt (editEntry i (relearnEntry set) s.ldt) (send (.relearn i set) s)) ha .ldt (by simp)
  exact Eq.trans hkeeps (editEntry_some _ he)

/-- Settles O28: the tests in their order, each with its answer, and what an accepted RELEARN leaves. -/
theorem relearnForgetsTheNamedCircuits : Obligations.RelearnForgetsTheNamedCircuits := by
  intro a b s h hi
  refine ⟨fun hs => exec_relearn_refused h hi (by simp only [relearnTarget, hs]), fun subject hs =>
    ⟨fun hc => exec_relearn_refused h hi (by simp [relearnTarget, hs, hc]), fun hc he => ?_, fun i e hc hx he =>
      ⟨fun hl => ?_, fun hl => ?_⟩⟩⟩
  · refine exec_relearn_refused h hi ((relearnTarget_subject hs hc).trans ?_)
    cases hx : servingIndex s.ldt subject with
    | none => rfl
    | some i => simp only [hx, Option.bind_some] at he; simp only [he]
  · refine exec_relearn_refused h hi ((relearnTarget_subject hs hc).trans ?_)
    simp only [hx, he, if_pos hl]
  · have ha : (restartSilence s).pwc.power = .active := by obtain ⟨-, -, -, hp, -⟩ := h; exact hp
    have ht : relearnTarget a (restartSilence s) = .ok (subject, i) := by
      have hn : (restartSilence s).clc.census = none := hc
      refine (relearnTarget_subject hs hn).trans ?_
      simp [restartSilence, hx, he, hl]
    have hwork : answerRelearn a b (restartSilence s) = relearned subject b i (restartSilence s) := by
      simp only [answerRelearn, ht]
      rfl
    have honly := (restartSilence_only s).trans (relearned_only subject b i ha)
    have hpwc : (relearned subject b i (restartSilence s)).pwc = s.pwc := honly .pwc (by simp)
    have ha' : (relearned subject b i (restartSilence s)).pwc.power = .active := by rw [hpwc]; exact ha
    obtain ⟨hexec, hreplies, hspoke⟩ := h.speaks (f := { kind := 0x0C, body := [a, b] }) (owner := answerRelearn a b)
      rfl rfl (verdict_idle hi rfl) hwork (relearned_says subject b i _) ha'
    refine ⟨finish (relearned subject b i (restartSilence s)), relearnEntry b e, congrArg Host.Outcome.next hexec,
      hreplies, hspoke, ?_, rfl, fun c => ?_, ?_, ?_, ?_⟩
    · rw [finish_ldt]
      exact relearned_ldt subject b ha he
    · simp [relearnEntry]
    · rw [finish_flt]
      exact forget_contents (fun r => rfl) _ _
    · obtain ⟨f, mid, hlist, hf, hmid⟩ := forget_list (isLampOf subject b) (dropResolvedLamps subject b)
        (setLdt (editEntry i (relearnEntry b) s.ldt) (send (.relearn i b) (restartSilence s))) ha
      refine ⟨f, dropResolvedLamps subject b mid, ?_, ?_, ?_⟩
      · rw [finish_dsr]
        exact hlist
      · rw [finish_flt]
        exact hf
      · rw [dropResolvedLamps_resolved, hmid, List.filter_filter]
        refine List.filter_congr fun e _ => ?_
        cases hs : e.state <;> simp [DisplayEntry.live, hs]
    · exact (honly.trans (finish_only_active ha' (by rw [hpwc]; exact h.wake))).mono (by simp)

end Sys2Proof.Machine
end


/-! ### Requests that write the Load Table's blocks: O24, O31, O32 -/

section
/-!
PROOFS. COMMISSION-CONFIRM (O31), RELEASE-BEGIN and RELEASE-CONFIRM (O32), and STANDBY (O24), each of which asks for the
write of a LOADS block.
-/
namespace Sys2Proof.Machine

/-! ### The write of a service operation (R159, R162, R183) -/

theorem startServiceWrite_eq (op : ServiceOp) (target : ServiceTarget) (i : Nat) (s : State) :
    startServiceWrite op target i s =
      { s with stc := (startServiceWrite op target i s).stc, svc := (startServiceWrite op target i s).svc } := by
  unfold startServiceWrite
  simp only
  rw [askWrite_eq]
  rfl

theorem startServiceWrite_only (op : ServiceOp) (target : ServiceTarget) (i : Nat) (s : State) :
    OnlyChanges [.svc, .stc] s (startServiceWrite op target i s) := by
  rw [startServiceWrite_eq]
  intro b hb
  cases b <;> simp_all [Same]

/-- The operation is WRITING, and knows whether its write has begun. -/
theorem startServiceWrite_svc (op : ServiceOp) (target : ServiceTarget) (i : Nat) (s : State) :
    (startServiceWrite op target i s).svc = { s.svc with
      state := .writing, captureTimer := none, release := none
      write := some { op := op, target := target, index := i, block := blockOfIndex i
                      begun := s.stc.writing.isNone, aborted := false } } := by
  unfold startServiceWrite
  cases hw : s.stc.writing with
  | none => simp [askWrite, hw, setSvc, beginWrite]
  | some w => simp [askWrite, hw, setSvc]; split <;> rfl

theorem beginWrite_stc (b : StoreBlock) (s : State) :
    (beginWrite b s).stc.writing = some b ∧ (beginWrite b s).stc.queue = s.stc.queue := by
  cases b <;> exact ⟨rfl, rfl⟩

theorem startServiceWrite_idle {op : ServiceOp} {target : ServiceTarget} {i : Nat} {s : State}
    (hw : s.stc.writing = none) : (startServiceWrite op target i s).stc.writing = some (blockOfIndex i) ∧
      (startServiceWrite op target i s).stc.queue = s.stc.queue := by
  unfold startServiceWrite
  simp only
  rw [askWrite_idle _ (by exact hw)]
  exact beginWrite_stc _ _

theorem startServiceWrite_busy {op : ServiceOp} {target : ServiceTarget} {i : Nat} {s : State} {w : StoreBlock}
    (hw : s.stc.writing = some w) : (startServiceWrite op target i s).stc = { s.stc with
      queue := if blockOfIndex i ∈ s.stc.queue then s.stc.queue else s.stc.queue ++ [blockOfIndex i] } := by
  unfold startServiceWrite
  simp only
  rw [askWrite_busy (w := w) _ (by exact hw)]
  rfl

/-! ### COMMISSION-CONFIRM (R158, R159) -/

theorem commissionEntry_outside {rs : List CaptureRecord} {e : Entry} {c : Circuit} (h : ∀ r ∈ rs, r.circuit ≠ c) :
    (commissionEntry rs e).cells.get c = endRun (e.cells.get c) := by
  have hfind : rs.find? (fun r => decide (r.circuit = c) && r.captured.isSome) = none := by
    rw [List.find?_eq_none]
    intro r hr
    simp [h r hr]
  simp [commissionEntry, hfind]

theorem commissionEntry_captured {rs : List CaptureRecord} {e : Entry} {c : Circuit} {r : CaptureRecord}
    {x : Captured} (hall : ∀ r ∈ rs, r.captured ≠ none) (hr : rs.find? (fun r => r.circuit = c) = some r)
    (hx : r.captured = some x) : (commissionEntry rs e).cells.get c =
      { base := { state := .known, cls := x.cls, nominal := x.nominal, vref := x.vref }
        learn := LearningRecord.empty } := by
  have hfind : rs.find? (fun r => decide (r.circuit = c) && r.captured.isSome) = some r := by
    rw [← hr]
    refine List.find?_congr fun q hq => ?_
    simp [Option.isSome_iff_ne_none, hall q hq]
  simp [commissionEntry, hfind, hx]

theorem captureComplete_iff (k : Capture) : captureComplete k = true ↔ ∀ r ∈ k.records, r.captured ≠ none := by
  simp [captureComplete, Option.isSome_iff_ne_none]

theorem endCapture_full {s : State} {k : Capture} (r : ServiceResult) (h : s.svc.capture = some k) :
    endCapture r s = send (.serviceDone .commission (.subject k.target) r none)
      (setSticky r { s with svc := { s.svc with state := .idle, captureTimer := none } }) := by
  simp only [endCapture, h]
  rfl

/-- Settles O31: the two endings, and the entry commissioned. -/
theorem commissionConfirmWritesOrEnds : Obligations.CommissionConfirmWritesOrEnds := by
  intro a id k s h hid hs hk
  have hv : serviceVerdict 0x15 s.svc.mode s.svc.state = .pass := by rw [hs]; rfl
  have hlen : lengthGood { kind := 0x15, body := a :: id } = true := by simp [lengthGood, bodyLength, hid]
  have hat : identityAt (a :: id) 1 = identityAt id 0 := rfl
  have hcap : (restartSilence s).svc.capture = some k := hk
  have hwork : ∀ u, answerCommissionConfirm a (identityAt id 0) (restartSilence s) = u →
      answerCommissionConfirm (byteAt (a :: id) 0) (identityAt (a :: id) 1) (restartSilence s) = u := fun u hu => hu
  refine ⟨fun hm => ?_, fun ht hi hr => ?_, fun e ht hi hr he => ?_⟩
  · refine congrArg Host.Outcome.next (h.gives [_, _] rfl hlen hv (hwork _ ?_))
    simp only [answerCommissionConfirm, hcap, if_pos hm]
    exact endCapture_full _ hk
  · have hincomplete : captureComplete k = false := by
      obtain ⟨r, hr, hnone⟩ := hr
      rw [Bool.eq_false_iff]
      exact fun hc => (captureComplete_iff k).1 hc r hr hnone
    refine congrArg Host.Outcome.next (h.gives [_, _] rfl hlen hv (hwork _ ?_))
    have hecho : ¬(subjectOf a ≠ some k.target ∨ identityAt id 0 ≠ k.identity) := by simp [ht, hi]
    simp only [answerCommissionConfirm, hcap, if_neg hecho, hincomplete, Bool.not_false, if_true]
    exact endCapture_full _ hk
  · have hcomplete : captureComplete k = true := (captureComplete_iff k).2 hr
    obtain ⟨v, hv'⟩ : ∃ v, v = setLdt (editEntry k.index (commissionEntry k.records) s.ldt)
        (send (.confirm .commission none) (restartSilence s)) := ⟨_, rfl⟩
    obtain ⟨u, hu⟩ : ∃ u, u = startServiceWrite .commission (.subject k.target) k.index v := ⟨_, rfl⟩
    have honly := startServiceWrite_only .commission (.subject k.target) k.index v
    rw [← hu] at honly
    have hhlc : u.hlc = (answered [.confirm .commission none] s).hlc :=
      (show u.hlc = v.hlc from honly .hlc (by simp)).trans (by rw [hv']; rfl)
    have hldt : u.ldt = { s.ldt with entries := s.ldt.entries.set k.index (some (commissionEntry k.records e)) } :=
      (show u.ldt = v.ldt from honly .ldt (by simp)).trans (by rw [hv']; exact editEntry_some _ he)
    have hsame : OnlyChanges [.ldt, .svc, .hlc, .stc] s u := by
      have hleft : OnlyChanges [.hlc, .ldt] s v := by
        rw [hv']
        exact ((restartSilence_only s).trans ((send_only _ _).trans (setLdt_only _ _))).mono (by simp)
      exact (hleft.trans honly).mono (by simp)
    have hsvc : v.svc = s.svc ∧ v.stc = s.stc := by rw [hv']; exact ⟨rfl, rfl⟩
    refine ⟨u, commissionEntry k.records e, congrArg Host.Outcome.next (h.gives [.confirm .commission none] rfl hlen hv
      (hwork _ ?_) hhlc (hsame .dsr (by simp)) (hsame .flt (by simp)) (congrArg Pwc.power (hsame .pwc (by simp)))
      (congrArg Pwc.wake (hsame .pwc (by simp)))), hhlc, hldt, rfl, fun c hc => commissionEntry_outside hc,
      fun c r x hc hx => commissionEntry_captured hr hc hx, ?_, fun hw => ?_, fun w hw => ⟨_, rfl, ?_⟩, hsame⟩
    · have hecho : ¬(subjectOf a ≠ some k.target ∨ identityAt id 0 ≠ k.identity) := by simp [ht, hi]
      simp only [answerCommissionConfirm, hcap, if_neg hecho, hcomplete, Bool.not_true, Bool.false_eq_true, if_false]
      rw [hu, hv']
      rfl
    · rw [hu, startServiceWrite_svc, hsvc.1, hsvc.2]
      rfl
    · rw [hu]
      obtain ⟨hwriting, hqueue⟩ := startServiceWrite_idle (op := .commission) (target := .subject k.target)
        (i := k.index) (hsvc.2 ▸ hw : v.stc.writing = none)
      exact ⟨hwriting, hqueue.trans (congrArg Stc.queue hsvc.2)⟩
    · rw [hu, startServiceWrite_busy (hsvc.2 ▸ hw : v.stc.writing = some w), hsvc.2]
      rfl

/-! ### RELEASE-BEGIN (R161) -/

theorem exec_releaseBegin_refused {a : Byte} {s : State} {r : Reason} (h : Listening s) (hi : s.svc.state = .idle)
    (hm : s.svc.mode = true) (ht : releaseTest a.toNat s = .error r) :
    exec (.releaseBegin [a]) s = .next (answered [.refused 0x17 r] s) := by
  refine congrArg Host.Outcome.next (h.gives [.refused 0x17 r] rfl rfl (by rw [hi, hm]; rfl) ?_)
  have ht' : releaseTest a.toNat (restartSilence s) = .error r := ht
  change answerReleaseBegin a.toNat (restartSilence s) = _
  simp only [answerReleaseBegin, ht']
  rfl

/-- With no error set and an index of the table, what is left to test is its entry. -/
theorem releaseTest_index {i : Nat} {s : State} (hs : s.svc.sticky = Sticky.none) (hi : i ≤ 27) :
    releaseTest i s =
      match entryAt s.ldt i with
      | none => .error .state
      | some e => if e.lock = .opened then .error .state else .ok e := by
  have hany : anySticky s.svc.sticky = false := by rw [hs]; rfl
  simp only [releaseTest, hany, Nat.not_lt.2 hi]
  rfl

/-! ### RELEASE-CONFIRM (R162) -/

theorem endRelease_full {s : State} {k : Release} (r : ServiceResult) (h : s.svc.release = some k) :
    endRelease r s = send (.serviceDone .release (.index k.index) r none)
      (setSticky r { s with svc := { s.svc with state := .idle, release := none } }) := by
  simp only [endRelease, h]
  rfl

theorem removeLamps_only (subject : Subject) (set : CircuitSet) {s : State} (ha : s.pwc.power = .active) :
    OnlyChanges [.flt, .dsr, .hlc] s (removeLamps subject set s) := forget_only _ _ ha

theorem removeLamps_ldt (subject : Subject) (set : CircuitSet) {s : State} (ha : s.pwc.power = .active) :
    (removeLamps subject set s).ldt = s.ldt := removeLamps_only subject set ha .ldt (by simp)

theorem applyRelease_only (i : Nat) {s : State} (ha : s.pwc.power = .active) :
    OnlyChanges [.ldt, .flt, .dsr, .hlc] s (applyRelease i s) := by
  unfold applyRelease
  simp only
  split
  · rename_i t _
    have hall := (setLdt_only (editEntry i releaseEntry s.ldt) s).trans (removeLamps_only t 0xFF (by exact ha))
    exact hall.mono (by simp)
  · exact (setLdt_only _ s).mono (by simp)

theorem applyRelease_says (i : Nat) (s : State) : Says [] s.hlc (applyRelease i s).hlc := by
  unfold applyRelease
  simp only
  split
  · exact forget_says _ _ (setLdt (editEntry i releaseEntry s.ldt) s)
  · exact .refl _

theorem applyRelease_ldt (i : Nat) {s : State} (ha : s.pwc.power = .active) :
    (applyRelease i s).ldt = editEntry i releaseEntry s.ldt := by
  unfold applyRelease
  simp only
  split
  · rename_i t _
    rw [removeLamps_ldt t 0xFF (by exact ha)]
    rfl
  · rfl

/-- The LAMP-family records of the subject the entry serves go (R162, R115). -/
theorem applyRelease_contents (i : Nat) (s : State) : recordContents (applyRelease i s).flt =
    (recordContents s.flt).map fun o => o.filter fun x =>
      !(servedSubject s.ldt i).any fun u => isLampOf u 0xFF x := by
  unfold applyRelease
  simp only
  split
  · rename_i t ht
    rw [show servedSubject s.ldt i = some t from ht]
    exact forget_contents (fun r => rfl) _ _
  · rename_i ht
    rw [show servedSubject s.ldt i = none from ht]
    refine (List.map_id _).symm.trans (List.map_congr_left fun o _ => ?_)
    cases o <;> rfl

/-- Settles O32: the tests of a release, its two endings, and the entry opened. -/
theorem releaseBeginAndConfirm : Obligations.ReleaseBeginAndConfirm := by
  intro a id s h hid
  refine ⟨fun hi hm => ⟨fun hs => exec_releaseBegin_refused h hi hm (if_pos hs), fun hs ha => ?_, fun hs ha he => ?_,
    fun e hs ha he hl => ?_⟩, fun r hs hr => ?_⟩
  · have hany : anySticky s.svc.sticky = false := by rw [hs]; rfl
    exact exec_releaseBegin_refused h hi hm (by simp [releaseTest, hany, ha])
  · refine exec_releaseBegin_refused h hi hm ((releaseTest_index hs ha).trans ?_)
    cases hx : entryAt s.ldt a.toNat with
    | none => rfl
    | some e => exact if_pos (he e hx)
  · refine congrArg Host.Outcome.next (h.gives [_] rfl rfl (by rw [hi, hm]; rfl) ?_)
    have ht : releaseTest a.toNat (restartSilence s) = .ok e := by
      refine (releaseTest_index (s := restartSilence s) hs ha).trans ?_
      simp [restartSilence, he, hl]
    change answerReleaseBegin a.toNat (restartSilence s) = _
    simp only [answerReleaseBegin, ht]
    rfl
  · have hv : serviceVerdict 0x18 s.svc.mode s.svc.state = .pass := by rw [hs]; rfl
    have hlen : lengthGood { kind := 0x18, body := a :: id } = true := by simp [lengthGood, bodyLength, hid]
    have hrel : (restartSilence s).svc.release = some r := hr
    refine ⟨fun hm => ?_, fun e hx hi he => ?_⟩
    · refine congrArg Host.Outcome.next (h.gives [_, _] rfl hlen hv ?_)
      change answerReleaseConfirm a.toNat (identityAt id 0) (restartSilence s) = _
      simp only [answerReleaseConfirm, hrel, if_pos hm]
      exact endRelease_full _ hr
    · obtain ⟨v, hv'⟩ : ∃ v, v = applyRelease r.index (send (.confirm .release none) (restartSilence s)) := ⟨_, rfl⟩
      obtain ⟨u, hu⟩ : ∃ u, u = startServiceWrite .release (.index r.index) r.index v := ⟨_, rfl⟩
      have ha : (send (.confirm .release none) (restartSilence s)).pwc.power = .active := by
        obtain ⟨-, -, -, hp, -⟩ := h
        exact hp
      have hwork : answerReleaseConfirm a.toNat (identityAt id 0) (restartSilence s) = u := by
        simp only [answerReleaseConfirm, hrel, hx, hi, hu, hv']
        simp
      have hleft : OnlyChanges [.ldt, .flt, .dsr, .hlc] s v := by
        rw [hv']
        exact (((restartSilence_only s).trans (send_only _ _)).trans (applyRelease_only _ ha)).mono (by simp)
      have honly := startServiceWrite_only .release (.index r.index) r.index v
      rw [← hu] at honly
      have hsame : OnlyChanges [.ldt, .flt, .dsr, .svc, .hlc, .stc] s u := (hleft.trans honly).mono (by simp)
      have hsvc : v.svc = s.svc := hleft .svc (by simp)
      have hstc : v.stc = s.stc := hleft .stc (by simp)
      have hpwc : u.pwc = s.pwc := hsame .pwc (by simp)
      have hhlc : u.hlc = v.hlc := honly .hlc (by simp)
      have hsays : Says [.confirm .release none] (restartSilence s).hlc u.hlc := by
        rw [hhlc, hv']
        exact (send_says _ rfl rfl).trans (applyRelease_says _ _)
      have ha' : u.pwc.power = .active := by rw [hpwc]; exact ha
      obtain ⟨hexec, hreplies, hspoke⟩ := h.speaks (f := { kind := 0x18, body := a :: id })
        (owner := answerReleaseConfirm a.toNat (identityAt id 0)) rfl hlen hv hwork hsays ha'
      refine ⟨finish u, congrArg Host.Outcome.next hexec, hreplies, hspoke, ?_, ?_, ?_, fun hw => ?_, fun w hw =>
        ⟨_, rfl, ?_⟩, (hsame.trans (finish_only_active ha' (by rw [hpwc]; exact h.wake))).mono (by simp)⟩
      · rw [finish_ldt]
        refine (show u.ldt = v.ldt from honly .ldt (by simp)).trans ?_
        rw [hv', applyRelease_ldt _ ha]
        exact editEntry_some _ he
      · rw [finish_flt]
        refine (congrArg recordContents (show u.flt = v.flt from honly .flt (by simp))).trans ?_
        rw [hv']
        exact applyRelease_contents _ _
      · rw [finish_svc, hu, startServiceWrite_svc, hsvc, hstc]
        rfl
      · rw [finish_stc, hu]
        obtain ⟨hwriting, hqueue⟩ := startServiceWrite_idle (op := .release) (target := .index r.index)
          (i := r.index) (hstc ▸ hw : v.stc.writing = none)
        exact ⟨hwriting, hqueue.trans (congrArg Stc.queue hstc)⟩
      · rw [finish_stc, hu, startServiceWrite_busy (hstc ▸ hw : v.stc.writing = some w), hstc]
        rfl

/-! ### STANDBY (R188, R61) -/

theorem endRun_endRun (x : LoadCell) : endRun (endRun x) = endRun x := by
  unfold endRun
  by_cases h : x.base.state = .learning
  · simp [h, LoadCell.unknown]
  · simp [h]

/-- A run ended first is stored as it would be running (R61). -/
theorem storeEntry_endRunsOf (e : Entry) : storeEntry (endRunsOf e) = storeEntry e := by
  simp only [storeEntry, endRunsOf]
  congr 1
  refine PerCircuit.ext_get fun c => ?_
  simp [endRun_endRun]

theorem storedEntries_endAllRuns (t : Ldt) : storedEntries (endAllRuns t) = storedEntries t := by
  simp only [storedEntries, endAllRuns, mapEntries, List.map_map]
  refine List.map_congr_left fun o _ => ?_
  cases o with
  | none => rfl
  | some e => exact congrArg some (storeEntry_endRunsOf e)

/-- The state in which an entry asks for its two writes. -/
def entered (s : State) : State :=
  setLdt (endAllRuns s.ldt) (setStandbyEntry true (abortCensus s))

theorem beginEntry_entered (s : State) : beginEntry s = askWrite .loadsB (askWrite .loadsA (entered s)) := by
  unfold beginEntry entered
  simp only
  rw [show (setStandbyEntry true (abortCensus s)).ldt = s.ldt from by rw [abortCensus_eq]; rfl]

theorem entered_eq (s : State) : entered s =
    { s with clc := (abortCensus s).clc, ldt := endAllRuns s.ldt, pwc := { s.pwc with standbyEntry := true } } := by
  unfold entered
  rw [abortCensus_eq]
  rfl

theorem beginEntry_eq (s : State) : beginEntry s =
    { s with
      clc := (abortCensus s).clc, ldt := endAllRuns s.ldt, stc := (beginEntry s).stc
      svc := { s.svc with write := (beginEntry s).svc.write }, pwc := { s.pwc with standbyEntry := true } } := by
  rw [beginEntry_entered, askWrite_eq, askWrite_eq, entered_eq]

theorem beginEntry_only (s : State) : OnlyChanges [.clc, .ldt, .svc, .stc, .pwc] s (beginEntry s) := by
  rw [beginEntry_eq]
  intro b hb
  cases b <;> simp_all [Same]

/-- With no write in progress LOADS-A begins, as the table stands, and LOADS-B waits (R61, R183). -/
theorem beginEntry_idle {s : State} (hw : s.stc.writing = none) :
    (beginEntry s).stc.writing = some .loadsA ∧ (beginEntry s).stc.good .loadsA = false ∧
      (beginEntry s).stc.loadsA.content = (s.ldt.entries.take 12).map (fun o => o.map storeEntry) ∧
      (beginEntry s).stc.queue = if .loadsB ∈ s.stc.queue then s.stc.queue else s.stc.queue ++ [.loadsB] := by
  have hentered : (entered s).stc = s.stc := by rw [entered_eq]
  have hldt : (entered s).ldt = endAllRuns s.ldt := by rw [entered_eq]
  have hidle : (entered s).stc.writing = none := by rw [hentered, hw]
  obtain ⟨hwriting, hqueue⟩ := beginWrite_stc .loadsA (entered s)
  rw [hentered] at hqueue
  rw [beginEntry_entered, askWrite_idle _ hidle, askWrite_busy _ hwriting]
  refine ⟨hwriting, spoiled_good _ _, ?_, ?_⟩
  · have hcontent : (beginWrite .loadsA (entered s)).stc.loadsA.content = (storedEntries (entered s).ldt).take 12 := rfl
    refine hcontent.trans ?_
    rw [hldt, storedEntries_endAllRuns, storedEntries, List.map_take]
  · simp only [hqueue]

theorem beginEntry_busy {s : State} {w : StoreBlock} (hw : s.stc.writing = some w) :
    (beginEntry s).stc = { s.stc with
      queue := s.stc.queue ++ [.loadsA, .loadsB].filter fun x => decide (x ∉ s.stc.queue) } := by
  have hentered : (entered s).stc = s.stc := by rw [entered_eq]
  rw [beginEntry_entered, askWrite_two (by decide) (hentered ▸ hw), hentered]

theorem abortCensus_running {s : State} {run : CensusRun} (h : s.clc.census = some run) : (abortCensus s).clc =
    { abandonLine s.now s.clc with census := none, task := none, cycle := some (newCycle s.now) } := by
  simp [abortCensus, h, setClc]

/-- Settles O24: the refusal, and the entry begun. -/
theorem standbyBeginsAnEntry : Obligations.StandbyBeginsAnEntry := by
  intro s h hi
  refine ⟨fun hm => ?_, fun hm => ?_⟩
  · exact congrArg Host.Outcome.next (h.gives [.refused 0x0E .state] rfl rfl (verdict_idle hi rfl) (if_pos hm))
  · obtain ⟨v, hv⟩ : ∃ v, v = send (.ok 0x0E) (restartSilence s) := ⟨_, rfl⟩
    have hleft : OnlyChanges [.hlc] s v := by
      rw [hv]
      exact ((restartSilence_only s).trans (send_only _ _)).mono (by simp)
    have hnow : v.now = s.now := hleft .now (by simp)
    have hclc : v.clc = s.clc := hleft .clc (by simp)
    have hldt : v.ldt = s.ldt := hleft .ldt (by simp)
    have hsvc : v.svc = s.svc := hleft .svc (by simp)
    have hstc : v.stc = s.stc := hleft .stc (by simp)
    have hpwc : v.pwc = s.pwc := hleft .pwc (by simp)
    have hwake := h.wake
    have hself := h
    obtain ⟨-, -, he, hp, -, -, -, hlines⟩ := hself
    have hwork : answerStandby (restartSilence s) = beginEntry v := by
      rw [hv]
      simp [answerStandby, restartSilence, hm, he]
    have hu := beginEntry_eq v
    have hact : (beginEntry v).pwc = { s.pwc with standbyEntry := true } := by rw [hu, hpwc]
    have ha' : (beginEntry v).pwc.power = .active := by rw [hact]; exact hp
    have hw' : (beginEntry v).pwc.wake = false := by rw [hact]; exact hwake
    have hhlc : (beginEntry v).hlc = v.hlc := by rw [hu]
    have hsays : Says [.ok 0x0E] (restartSilence s).hlc (beginEntry v).hlc := by
      rw [hhlc, hv]
      exact send_says _ rfl rfl
    obtain ⟨hexec, hreplies, hspoke⟩ := h.speaks (f := { kind := 0x0E, body := [] }) (owner := answerStandby) rfl rfl
      (verdict_idle hi rfl) hwork hsays ha'
    have hdsr : (finish (beginEntry v)).dsr = s.dsr := by
      refine finish_dsr_same hlines (ha'.trans hp.symm) ?_ ?_ ?_
      · rw [hu]; exact congrArg Flt.records (hleft .flt (by simp))
      · rw [hu]; exact hleft .dsr (by simp)
      · rw [hhlc, hv]; simp [restartSilence]
    refine ⟨finish (beginEntry v), congrArg Host.Outcome.next hexec, hreplies, hspoke,
      (finish_pwc_active ha' hw').trans hact, ?_, fun hn => ?_, fun run hr => ?_, fun hw => ?_, fun w hw => ?_, ?_, ?_⟩
    · rw [finish_ldt, hu, hldt]
    · rw [finish_clc, hu, ← hclc]
      simp [abortCensus, hclc, hn]
    · rw [finish_clc, hu]
      have hclose := abortCensus_running (s := v) (run := run) (by rw [hclc, hr])
      rw [hclose, hnow, hclc]
      exact ⟨rfl, rfl, rfl, rfl, rfl, rfl, rfl, rfl, rfl⟩
    · rw [finish_stc, ← hstc, ← hldt]
      exact beginEntry_idle (hstc ▸ hw)
    · rw [finish_stc, ← hstc]
      exact beginEntry_busy (hstc ▸ hw)
    · rw [finish_svc, hu, hsvc]
    · have hall := (hleft.trans (beginEntry_only v)).trans (finish_only_active ha' hw')
      intro b hb
      by_cases hd : b = .dsr
      · subst hd
        exact hdsr
      · refine hall b fun hm => hb ?_
        simp only [List.mem_append, List.mem_cons, List.not_mem_nil, or_false] at hm ⊢
        tauto

end Sys2Proof.Machine
end


/-! ### DISPLAY and the parameters: O19 to O21 -/

section
/-!
PROOFS. DISPLAY (O19), SET-PARAM (O20) and the values the parameters store (O21).
-/
namespace Sys2Proof.Machine

/-! ### The coalesced notices at the end of an event (R169) -/

/-- An event's end adds and withdraws STATUS-CHANGEs alone. -/
theorem finish_notices (u : State) :
    (outgoing (finish u).hlc).filter (fun r => !r.isStatusChange) =
      (outgoing u.hlc).filter fun r => !r.isStatusChange := by
  unfold finish
  simp only
  split
  · rw [sendStatusChange_outgoing]
    simp only [outgoing, List.filter_append, List.filter_filter, Bool.and_self]
    simp [TxRecord.isStatusChange, refreshLines]
  · rfl

/-- The snapshot leaves last. -/
theorem sendSnapshot_outgoing (s : State) : outgoing (sendSnapshot s).hlc =
    s.hlc.sending.toList ++ s.hlc.queue.filter (fun r => !r.isSnapshot) ++
      [.snapshot s.dsr.list s.dsr.overflow (telltales s.dsr.list)] := by
  unfold sendSnapshot
  simp only [outgoing, setMirror_hlc_sending, setMirror_hlc_queue]
  exact outgoing_enqueue _ _

theorem sendSnapshot_only (s : State) : OnlyChanges [.dsr, .hlc] s (sendSnapshot s) := by
  rw [sendSnapshot_eq]
  intro b hb
  cases b <;> simp_all [Same]

theorem ttfbDue_finish (u : State) : ttfbDue (finish u) = ttfbDue u :=
  ttfbDue_congr (by simp) (by simp) (by simp) (by simp)

/-- Settles O19: the reply, and the snapshot behind it. -/
theorem displayRepliesAndSendsTheList : Obligations.DisplayRepliesAndSendsTheList := by
  intro s h hi
  obtain ⟨v, hv⟩ : ∃ v, v = send (.display (displayReport s)) (restartSilence s) := ⟨_, rfl⟩
  have hleft : OnlyChanges [.hlc] s v := by
    rw [hv]
    exact ((restartSilence_only s).trans (send_only _ _)).mono (by simp)
  have hdsr : v.dsr = s.dsr := hleft .dsr (by simp)
  have hu := sendSnapshot_eq v
  have hpwc : (sendSnapshot v).pwc = s.pwc := by rw [hu]; exact hleft .pwc (by simp)
  have ha : (sendSnapshot v).pwc.power = .active := by
    obtain ⟨-, -, -, hp, -⟩ := h
    rw [hpwc]
    exact hp
  have hw : (sendSnapshot v).pwc.wake = false := by rw [hpwc]; exact h.wake
  have hsays : Says [.display (displayReport s)] (restartSilence s).hlc (sendSnapshot v).hlc := by
    rw [hv]
    exact (send_says _ rfl rfl).trans (sendSnapshot_says _)
  have hwork : answerDisplay (restartSilence s) = sendSnapshot v := by rw [hv]; rfl
  obtain ⟨hexec, hreplies, hspoke⟩ := h.speaks (f := { kind := 0x07, body := [] }) (owner := answerDisplay) rfl rfl
    (verdict_idle hi rfl) hwork hsays ha
  have honly := sendSnapshot_only v
  refine ⟨finish (sendSnapshot v), (v.hlc.sending.toList ++ v.hlc.queue.filter fun r => !r.isSnapshot).filter
    fun r => !r.isStatusChange, congrArg Host.Outcome.next hexec, hreplies, ?_, ?_, hspoke,
    ((hleft.trans honly).trans (finish_only_active ha hw)).mono (by simp)⟩
  · rw [finish_notices, sendSnapshot_outgoing, List.filter_append, hdsr]
    rfl
  · rw [ttfbDue_finish, finish_dsr, hu, hdsr, show v.now = s.now from hleft .now (by simp),
      show v.params = s.params from hleft .params (by simp)]

/-! ### SET-PARAM (R173) -/

/-- SET-PARAM with a value its parameter takes: the reply, the write, and its effect. -/
theorem answerSetParam_some {id n value v : Nat} {p : Params} {s : State} (hp : paramStore s.params id n value = some p)
    (hv : paramValue p id n = some v) : answerSetParam id n value s =
      parameterEffect id s.params p { send (.setParam id n v (v != value)) s with params := p } := by
  simp only [answerSetParam, hp, hv]
  rfl

/-- What waits to be sent before a re-evaluation of a changed parameter. -/
theorem reevaluate_only (before : ListView) (s : State) : OnlyChanges [.flt, .dsr, .hlc] s (reevaluate before s) := by
  rw [reevaluate_eq]
  intro b hb
  cases b <;> simp_all [Same]

/-- Settles O20: the refusal, and the write with each of its effects. -/
theorem setParamStoresAndReplies : Obligations.SetParamStoresAndReplies := by
  intro a b hi' lo s h hi
  have hval : numberAt [a, b, hi', lo] 2 2 = hi'.toNat * 256 + lo.toNat := numberAt_two a b hi' lo
  have howner : ∀ u, answerSetParam a.toNat b.toNat (hi'.toNat * 256 + lo.toNat) (restartSilence s) = u →
      answerSetParam (byteAt [a, b, hi', lo] 0).toNat (byteAt [a, b, hi', lo] 1).toNat (numberAt [a, b, hi', lo] 2 2)
        (restartSilence s) = u := by
    intro u hu
    rw [hval]
    exact hu
  refine ⟨fun hn => ?_, fun p v hp hv => ?_⟩
  · refine congrArg Host.Outcome.next (h.gives [.refused 0x08 .range] rfl rfl (verdict_idle hi rfl) (howner _ ?_))
    have hn' : paramStore (restartSilence s).params a.toNat b.toNat (hi'.toNat * 256 + lo.toNat) = none := hn
    simp only [answerSetParam, hn']
    rfl
  · have hstored := answerSetParam_some (s := restartSilence s) hp hv
    refine ⟨fun h6 h18 => ?_, fun h18 => ?_, fun h6 => ?_⟩
    · refine congrArg Host.Outcome.next (h.gives [_] rfl rfl (verdict_idle hi rfl) (howner _ (hstored.trans ?_)))
      simp only [parameterEffect, if_neg h18, if_neg h6]
      rfl
    · refine congrArg Host.Outcome.next (h.gives [_] rfl rfl (verdict_idle hi rfl) (howner _ (hstored.trans ?_)))
      simp only [parameterEffect, if_pos h18]
      have hsame : (restartSilence s).params.learnCount = s.params.learnCount := rfl
      by_cases hl : s.params.learnCount = p.learnCount
      · rw [if_pos (hsame.trans hl), if_pos hl.symm]
        rfl
      · rw [if_neg (fun e => hl (hsame.symm.trans e)), if_neg (fun e => hl e.symm)]
        rfl
    · obtain ⟨u, hu⟩ : ∃ u, u = ({ send (.setParam a.toNat b.toNat v (v != hi'.toNat * 256 + lo.toNat))
          (restartSilence s) with params := p } : State) := ⟨_, rfl⟩
      have hleft : OnlyChanges [.hlc, .params] s u := by
        rw [hu]
        intro b hb
        cases b <;> simp_all [Same, restartSilence]
      have hwork : answerSetParam a.toNat b.toNat (hi'.toNat * 256 + lo.toNat) (restartSilence s) =
          reevaluate (listView u.dsr) u := by
        rw [hstored, hu, h6]
        rfl
      have honly := hleft.trans (reevaluate_only (listView u.dsr) u)
      have hpwc : (reevaluate (listView u.dsr) u).pwc = s.pwc := honly .pwc (by simp)
      have ha : (reevaluate (listView u.dsr) u).pwc.power = .active := by
        obtain ⟨-, -, -, hpw, -⟩ := h
        rw [hpwc]
        exact hpw
      have hsays : Says [.setParam a.toNat b.toNat v (v != hi'.toNat * 256 + lo.toNat)] (restartSilence s).hlc
          (reevaluate (listView u.dsr) u).hlc := by
        have hsend : Says [.setParam a.toNat b.toNat v (v != hi'.toNat * 256 + lo.toNat)] (restartSilence s).hlc u.hlc := by
          rw [hu]
          exact send_says _ rfl rfl
        exact hsend.trans (reevaluate_says _ _)
      obtain ⟨hexec, hreplies, hspoke⟩ := h.speaks (f := { kind := 0x08, body := [a, b, hi', lo] })
        (owner := answerSetParam (byteAt [a, b, hi', lo] 0).toNat (byteAt [a, b, hi', lo] 1).toNat
          (numberAt [a, b, hi', lo] 2 2)) rfl rfl (verdict_idle hi rfl) (howner _ hwork) hsays ha
      refine ⟨finish (reevaluate (listView u.dsr) u), congrArg Host.Outcome.next hexec, hreplies, ?_, ?_, ?_, hspoke,
        (honly.trans (finish_only_active ha (by rw [hpwc]; exact h.wake))).mono (by simp)⟩
      · rw [finish_params, reevaluate_eq, hu]
      · rw [finish_dsr, reevaluate_list, hu]
        simp [restartSilence]
      · rw [finish_flt, reevaluate_contents, hu]
        simp [restartSilence]

/-! ### The parameters' values (R4, R173, R174) -/

theorem circuitOf_val (c : Circuit) : circuitOf c.val = some c := by
  simp [circuitOf]

theorem circuitOf_eq_some {n : Nat} {c : Circuit} (h : circuitOf n = some c) : n = c.val := by
  unfold circuitOf at h
  split at h
  · cases h; rfl
  · cases h

theorem circuitOf_none {n : Nat} (h : 7 < n) : circuitOf n = none := by
  simp [circuitOf]
  omega

theorem clampWindow_range (n : Nat) : clampWindow n ∈ [1, 2, 4, 8, 16] ∧ (n < 1 → clampWindow n = 1) ∧
    (1 ≤ n → clampWindow n ≤ n ∧ (n < 2 * clampWindow n ∨ clampWindow n = 16)) := by
  unfold clampWindow
  split_ifs <;> simp <;> omega

/-- The wake causes are read back as written (R198). -/
theorem wakeSetOf_wakeBits {n : Nat} {w : WakeSet} (h : wakeSetOf n = some w) : wakeBits w = n ∧ n ≤ 7 := by
  unfold wakeSetOf at h
  split at h
  · cases h
  · rename_i hn
    cases h
    have h7 : n ≤ 7 := by omega
    refine ⟨?_, h7⟩
    interval_cases n <;> rfl

theorem paramStore_wakeMask (p : Params) (n value : Nat) :
    (∃ q, paramStore p 23 n value = some q ∧ wakeBits q.wakeMask = value) ↔ value ≤ 7 := by
  constructor
  · rintro ⟨q, hq, hb⟩
    simp only [paramStore, Option.map_eq_some_iff] at hq
    obtain ⟨w, hw, rfl⟩ := hq
    exact (wakeSetOf_wakeBits hw).2
  · intro hv
    have hw : wakeSetOf value = some { fault := value % 2 = 1, composition := value / 2 % 2 = 1,
                                       supply := value / 4 % 2 = 1 } := if_neg (by omega)
    exact ⟨{ p with wakeMask := _ }, by simp only [paramStore, hw, Option.map_some], (wakeSetOf_wakeBits hw).1⟩

/-- The ids a parameter has (9.7). -/
theorem paramValue_id {p : Params} {id n v : Nat} (h : paramValue p id n = some v) :
    id ∈ [1, 2, 3, 4, 5, 6, 7, 16, 17, 18, 19, 20, 21, 22, 23] := by
  unfold paramValue at h
  split at h <;> simp_all

theorem paramStore_id {p q : Params} {id n value : Nat} (h : paramStore p id n value = some q) :
    id ∈ [1, 2, 3, 4, 5, 6, 7, 16, 17, 18, 19, 20, 21, 22, 23] := by
  unfold paramStore at h
  split at h <;> simp_all

theorem paramValue_unknown {p : Params} {id n : Nat}
    (h : id ∉ [1, 2, 3, 4, 5, 6, 7, 16, 17, 18, 19, 20, 21, 22, 23]) : paramValue p id n = none :=
  Option.eq_none_iff_forall_ne_some.2 fun _ hv => h (paramValue_id hv)

theorem paramStore_unknown {p : Params} {id n value : Nat}
    (h : id ∉ [1, 2, 3, 4, 5, 6, 7, 16, 17, 18, 19, 20, 21, 22, 23]) : paramStore p id n value = none :=
  Option.eq_none_iff_forall_ne_some.2 fun _ hv => h (paramStore_id hv)

/-- A number is stored at the nearer end of its range (R173). -/
theorem paramStore_number (p : Params) (c : Circuit) (value : Nat) {id lo hi : Nat}
    (h : (id, lo, hi) ∈ [(1, 1000, 20000), (2, 0, 500), (3, 10, 1000), (4, 10, 500), (5, 50, 1000), (6, 1, 7),
      (17, 50, 1000), (18, 1, 8), (19, 1, 15), (20, 1, 31), (21, 5, 300), (22, 500, 10000)]) :
    ∃ q, paramStore p id c.val value = some q ∧ paramValue q id c.val = some (max lo (min hi value)) := by
  have hrange : lo ≤ hi := by
    simp only [List.mem_cons, Prod.mk.injEq, List.not_mem_nil, or_false] at h
    omega
  rw [← clamp_eq_max_min hrange]
  simp only [List.mem_cons, Prod.mk.injEq, List.not_mem_nil, or_false] at h
  rcases h with h | h | h | h | h | h | h | h | h | h | h | h <;> obtain ⟨rfl, rfl, rfl⟩ := h <;>
    simp [paramStore, paramValue, circuitOf_val]

/-- A write changes no other parameter. -/
theorem paramStore_other {p q : Params} {id n value : Nat} (h : paramStore p id n value = some q) {id' : Nat}
    (hne : id' ≠ id) (m : Nat) : paramValue q id' m = paramValue p id' m := by
  unfold paramStore at h
  split at h
  case h_1 | h_2 | h_3 | h_4 | h_5 | h_6 | h_15 =>
    obtain ⟨_, _, rfl⟩ := Option.map_eq_some_iff.1 h
    unfold paramValue
    split <;> simp_all
  case h_7 => split at h <;> cases h <;> (unfold paramValue; split <;> simp_all)
  case h_16 => cases h
  all_goals
    cases h
    unfold paramValue
    split <;> simp_all

/-- A circuit's parameter is written on that circuit alone. -/
theorem paramStore_otherCircuit {p q : Params} {id value : Nat} {c : Circuit}
    (h : paramStore p id c.val value = some q) (hid : id ≤ 7) {n : Nat} (hn : n ≠ c.val) :
    paramValue q id n = paramValue p id n := by
  have hget : ∀ {α β : Type} (g : PerCircuit α) (v : α) (f : α → β),
      (circuitOf n).map (fun d => f ((g.set c v).get d)) = (circuitOf n).map fun d => f (g.get d) := by
    intro α β g v f
    cases hd : circuitOf n with
    | none => rfl
    | some d =>
      have hdc : d ≠ c := fun e => hn ((circuitOf_eq_some hd).trans (congrArg Fin.val e))
      simp only [Option.map_some, PerCircuit.get_set_other _ _ _ _ hdc]
  rcases Nat.eq_or_lt_of_le hid with rfl | hlt
  · simp only [paramStore, circuitOf_val] at h
    match value, h with
    | 0, h => cases h; exact hget p.legacyClass _ classBit
    | 1, h => cases h; exact hget p.legacyClass _ classBit
    | v + 2, h => cases h
  · interval_cases id <;> simp only [paramStore, circuitOf_val, Option.map_some, Option.some.injEq, reduceCtorEq] at h
    all_goals
      subst h
      exact hget _ _ fun x => x

/-- Settles O21: each claim of R173 and R4 in turn. -/
theorem parametersStoreTheirRange : Obligations.ParametersStoreTheirRange := by
  intro p c id value
  refine ⟨fun lo hi h => paramStore_number p c value h, ⟨_, rfl, clampWindow_range value⟩, ?_,
    paramStore_wakeMask p c.val value, fun q id' n h hne => paramStore_other h hne n,
    fun q n h hid hn => paramStore_otherCircuit h hid hn, fun n h => ⟨paramStore_unknown h, paramValue_unknown h⟩,
    fun n hid hn => ?_, fun n m hid => ?_⟩
  · simp only [paramStore, circuitOf_val]
    match value with
    | 0 => rfl
    | 1 => rfl
    | v + 2 => simp
  · interval_cases id <;> simp [paramStore, paramValue, circuitOf_none hn]
  · by_cases hk : id ≤ 23
    · interval_cases id <;> exact ⟨rfl, rfl⟩
    · have hno : id ∉ [1, 2, 3, 4, 5, 6, 7, 16, 17, 18, 19, 20, 21, 22, 23] := by
        simp only [List.mem_cons, List.not_mem_nil, or_false]
        omega
      rw [paramStore_unknown hno, paramStore_unknown hno, paramValue_unknown hno, paramValue_unknown hno]
      exact ⟨rfl, rfl⟩

end Sys2Proof.Machine
end


/-! ### The replies in parts: O17 -/

section
/-!
PROOFS. The lengths of the three contents, their cut into parts, and the requests that read them (O17).
-/
namespace Sys2Proof.Machine

/-! ### The widths of the fields (R198) -/

@[simp] theorem oneByte_length (n : Nat) : (oneByte n).length = 1 := rfl

@[simp] theorem toBigEndian_length (n v : Nat) : (toBigEndian n v).length = n := by
  induction n generalizing v with
  | zero => rfl
  | succ k ih => simp [toBigEndian, ih]

@[simp] theorem unusedBytes_length (n : Nat) : (unusedBytes n).length = n := by simp [unusedBytes]

@[simp] theorem timeBytes_length (n t : Nat) : (timeBytes n t).length = n := by simp [timeBytes]

@[simp] theorem signedBytes_length (n : Int) : (signedBytes n).length = 4 := by simp [signedBytes]

@[simp] theorem identityBytes_length (o : Option Identity) : (identityBytes o).length = 6 := by
  cases o <;> simp [identityBytes]

/-- Fields of one width, joined. -/
theorem length_flatten_map {α : Type} {f : α → List Byte} {n : Nat} (h : ∀ x, (f x).length = n) (l : List α) :
    (l.map f).flatten.length = n * l.length := by
  simp [List.length_flatten, Function.comp_def, h, Nat.mul_comm]

/-! ### The three contents (R200) -/

theorem summaryContent_length (s : State) (o : Option Summary) : (summaryContent s o).length = 22 := by
  cases o <;> simp [summaryContent]

theorem judgementContent_length (s : State) (c : Circuit) : (judgementContent s c).length = 25 := by
  simp [judgementContent, summaryContent_length, watchContent]

theorem senseContent_length (s : State) (c : Circuit) : (senseContent s c).length = 3 := by
  simp [senseContent]

theorem statusContent_length (s : State) : (statusContent s).length = 272 := by
  have hsense := length_flatten_map (senseContent_length s) allCircuits
  have hjudge := length_flatten_map (judgementContent_length s) allCircuits
  simp only [statusContent, List.length_append, hsense, hjudge]
  simp [powerContent, wakeBytes, flagContent, tableContent, linkContent, allCircuits]

theorem perCircuitBytes_length {α : Type} {f : α → List Byte} {n : Nat} (h : ∀ x, (f x).length = n)
    (p : PerCircuit α) : (perCircuitBytes f p).length = n * 8 :=
  length_flatten_map h p.toList

theorem reportBytes_length (r : Report) : (reportBytes r).length = 39 := by
  have hcircuits := length_flatten_map (n := 4) (f := fun c : Circuit =>
    toBigEndian 2 (r.current.get c) ++ oneByte (classBit (r.cls.get c)) ++ oneByte (r.outage.get c).toNat)
    (fun c => by simp) allCircuits
  simp only [reportBytes, List.length_append, hcircuits]
  simp [allCircuits]

theorem slotContent_length (x : SlotReport) : (slotContent x).length = 70 := by
  have hlamps := perCircuitBytes_length (fun n => oneByte_length n) x.lamps
  simp only [slotContent, List.length_append, hlamps]
  cases x.report <;> simp [reportBytes_length]

theorem chainContent_length (s : State) : (chainContent (chainReport s)).length = 12 + 70 * s.clc.table.length := by
  simp only [chainContent, List.length_append, length_flatten_map slotContent_length]
  simp [chainReport]

theorem recordContent_length (r : RecordReport) : (recordContent r).length = 16 := by
  unfold recordContent
  cases r.captured <;> simp

theorem timerContent_length (t : Option Nat) : (timerContent t).length = 4 := by
  cases t <;> simp [timerContent]

theorem captureContent_length (s : State) :
    (captureContent (captureReport s)).length = 20 + 16 * s.svc.capture.elim 0 (·.records.length) := by
  simp only [captureContent, captureReport, List.length_append, timerContent_length]
  cases s.svc.capture with
  | none => simp
  | some k =>
    simp [showCapture, Function.comp_def, recordContent_length]
    omega

/-! ### The cut into parts (R200) -/

theorem parts_take (content : List Byte) (k : Nat) :
    ((partNumbers k).map (partContent content)).flatten = content.take (118 * k) := by
  induction k with
  | zero => simp [partNumbers]
  | succ k ih =>
    have hsplit : partNumbers (k + 1) = partNumbers k ++ [k + 1] := by simp [partNumbers, List.range_succ]
    rw [hsplit, List.map_append, List.flatten_append, ih, Nat.mul_succ, List.take_add]
    simp [partContent]

theorem parts_join (content : List Byte) :
    ((partNumbers (partCount content.length)).map (partContent content)).flatten = content := by
  rw [parts_take]
  refine List.take_of_length_le ?_
  unfold partCount
  omega

theorem partContent_length_le (content : List Byte) (k : Nat) : (partContent content k).length ≤ 118 := by
  simp [partContent]

theorem statusReply_lengths (s : State) : (statusReply s).map (fun r => r.body.length) = [120, 120, 38] := by
  have hparts : partNumbers (partCount 272) = [1, 2, 3] := by decide
  simp [statusReply, statusContent_length, hparts, TxRecord.body, partBody, partContent]

/-- Settles O17: the requests, the contents, and their parts. -/
theorem wholeReadsAnswer : Obligations.WholeReadsAnswer := by
  refine ⟨fun s h => ⟨?_, ?_, statusReply_lengths s, fun hi => ?_, fun hi => ⟨_, rfl, ?_⟩⟩, fun s =>
    ⟨statusContent_length s, chainContent_length s, captureContent_length s⟩, fun content =>
    ⟨parts_join content, partContent_length_le content, fun k n => ⟨rfl, rfl, rfl⟩⟩⟩
  · have hactive : s.pwc.power = .active := by obtain ⟨-, -, -, hp, -⟩ := h; exact hp
    rw [← hactive]
    exact congrArg Host.Outcome.next (h.replies rfl rfl rfl rfl)
  · exact congrArg Host.Outcome.next (h.repliesAll rfl rfl rfl rfl)
  · rw [← chainContent_length]
    exact congrArg Host.Outcome.next (h.repliesAll rfl rfl (verdict_idle hi rfl) rfl)
  · rw [← captureContent_length]
    refine congrArg Host.Outcome.next (h.repliesAll rfl rfl ?_ rfl)
    rcases hi with hi | hi <;> rw [hi] <;> rfl

end Sys2Proof.Machine
end


/-! ### Frames that meet another or an entry: O13 -/

section
/-!
PROOFS. A valid frame behind another, in a SILENT link and in a standby entry (O13).
-/
namespace Sys2Proof.Machine

/-! ### A valid frame in ACTIVE -/

/-- The Host Link Controller of an ACTIVE part that hears a frame: the receiver hunts, the link is NORMAL and the silence
timer runs from its full duration (R166, R172). -/
def heardFrame (s : State) : State :=
  { s with hlc := { s.hlc with
      receiver := .hunting, silent := false, silence := some (s.now + silencePeriod)
      changes := if s.hlc.silent then addMatter .link s.hlc.changes else s.hlc.changes } }

theorem heard_active {s : State} (hp : s.pwc.power = .active) : heard (huntAgain s) = heardFrame s := by
  unfold heard heardFrame huntAgain markIf mark
  cases h : s.hlc.silent <;> simp [hp, restartSilence]

theorem frameCompletes_active {f : HostFrame} {s : State} (hp : s.pwc.power = .active)
    (he : s.pwc.standbyEntry = false) :
    frameCompletes f s = takeWaiting (bufferFrame f false false (heardFrame s)) := by
  have harrives : frameArrives (huntAgain s) = huntAgain s := by simp [frameArrives, huntAgain, hp, he]
  unfold frameCompletes
  rw [harrives, heard_active hp, he, hp]
  rfl

/-- An event whose work leaves nothing to report and the lines as they stand ends with its work. -/
theorem finish_of_work {u t : State} (e : u = t) (hc : t.hlc.changes = []) (hl : LinesLaw t) : finish u = t :=
  e ▸ finish_still t hc hl

/-- The replies of a frame's processing, and the frame taken behind it, do not meet. -/
theorem foldl_enqueue_frames (rs : List TxRecord) (h : Hlc) (p b : Option Waiting) :
    { rs.foldl (fun h r => h.enqueue r) h with processing := p, buffer := b } =
      rs.foldl (fun h r => h.enqueue r) { h with processing := p, buffer := b } := by
  induction rs generalizing h with
  | nil => rfl
  | cons r rs ih =>
    rw [List.foldl_cons, List.foldl_cons, ih]
    refine congrArg (fun k => rs.foldl (fun (h : Hlc) r => h.enqueue r) k) ?_
    simp only [Hlc.enqueue, Hlc.pump]
    cases h.sending <;> cases h.queue <;> rfl

theorem takeWaiting_free {u : State} (hp : u.hlc.processing = none) (hh : u.pwc.held = false)
    (hr : u.pwc.restartPending = false) :
    takeWaiting u = { u with hlc := { u.hlc with processing := u.hlc.buffer, buffer := none } } := by
  simp [takeWaiting, takesFrames, hp, hh, hr]

theorem exec_hostFrameValid {f : HostFrame} {s : State} (hh : s.pwc.held = false) :
    exec (.hostFrameValid f.kind f.body) s = .next (finish (frameCompletes f s)) :=
  congrArg Host.Outcome.next (event_released (frameCompletes f) s hh)

/-- The frame in processing is answered. -/
theorem hostRecord_processed {f : HostFrame} {owner : State → State} {s : State} {w : Waiting}
    (hh : s.pwc.held = false) (hp : s.hlc.processing = some w) (hw : w.frame = f) :
    hostRecord f owner s = process w owner s := by
  have hf : isProcessed f s = true := by simp [isProcessed, hp, hw]
  simp [hostRecord, hh, hf, hp, hw]

/-- A part in a standby entry that has taken a frame: the entry is cancelled, its waiting writes withdrawn, and the frame
is marked (R190). -/
def entryMet (f : HostFrame) (s : State) : State :=
  { s with
    hlc := { s.hlc with
      receiver := .hunting, silence := some (s.now + silencePeriod)
      processing := some { frame := f, cancelled := true, woke := false } }
    stc := { s.stc with queue := s.stc.queue.filter fun b => !isLoads b }
    pwc := { s.pwc with standbyEntry := false } }

theorem frameCompletes_entry {f : HostFrame} {s : State} (hp : s.pwc.power = .active) (he : s.pwc.standbyEntry = true)
    (hs : s.hlc.silent = false) (hpr : s.hlc.processing = none) (hb : s.hlc.buffer = none) (hh : s.pwc.held = false)
    (hr : s.pwc.restartPending = false) : frameCompletes f s = entryMet f s := by
  simp [frameCompletes, frameArrives, huntAgain, hp, he, cancelEntry, setStandbyEntry, heard, hs, restartSilence,
    bufferFrame, hb, takeWaiting, takesFrames, hpr, hh, hr, entryMet]

/-- A part whose accepted STANDBY request met a frame that waited: the entry's work but for its mark and its waiting
writes, and the frame taken, marked (R188, R190; log 40). -/
def entryWithdrawn (w : Waiting) (s : State) : State :=
  { beginEntry s with
    hlc := { s.hlc with processing := some { w with cancelled := true }, buffer := none }
    stc := { (beginEntry s).stc with queue := (beginEntry s).stc.queue.filter fun b => !isLoads b }
    pwc := s.pwc }

theorem entryWithdrawn_only (w : Waiting) (s : State) :
    OnlyChanges [.clc, .ldt, .svc, .hlc, .stc] s (entryWithdrawn w s) := by
  unfold entryWithdrawn
  rw [beginEntry_eq]
  intro b hb
  cases b <;> simp_all [Same]

theorem withdrawn_taken {w : Waiting} {s : State} (hb : s.hlc.buffer = some w) (hp : s.hlc.processing = none)
    (hh : s.pwc.held = false) (hr : s.pwc.restartPending = false) (he : s.pwc.standbyEntry = false) :
    takeWaiting (waitingCancels (beginEntry s)) = entryWithdrawn w s := by
  have hpwc : (beginEntry s).pwc = { s.pwc with standbyEntry := true } := by rw [beginEntry_eq]
  have hhlc : (beginEntry s).hlc = s.hlc := by rw [beginEntry_eq]
  have hcancel : waitingCancels (beginEntry s) = { beginEntry s with
      hlc := { s.hlc with buffer := some { w with cancelled := true } }
      stc := { (beginEntry s).stc with queue := (beginEntry s).stc.queue.filter fun b => !isLoads b }
      pwc := s.pwc } := by
    simp only [waitingCancels, hpwc, hhlc, hb, cancelEntry, setStandbyEntry]
    simp only [Option.isSome_some, Bool.and_self, if_true, Option.map_some]
    rw [← he]
  rw [hcancel, takeWaiting_free (by exact hp) (by exact hh) (by exact hr)]
  rfl

/-- Settles O13: each ending of a valid frame in ACTIVE. -/
theorem aValidFrameOverrunsReportsOrCancels : Obligations.AValidFrameOverrunsReportsOrCancels := by
  intro f s hh hp hc hl
  refine ⟨fun p hpr hb he hs => ?_, fun p w hpr hb he hs => ?_, fun w hpr hb hr he => ?_,
    fun w hpr hb hr he hm hi => ?_, fun hpr hb he hr hs => ?_, fun hfree he hs hr => ?_⟩
  · refine (exec_hostFrameValid hh).trans (congrArg Host.Outcome.next (finish_of_work ?_ hc
      (LinesLaw_of_same hl rfl rfl rfl rfl rfl)))
    rw [frameCompletes_active hp he]
    simp [bufferFrame, takeWaiting, heardFrame, hb, hpr, hs, hc]
  · refine (exec_hostFrameValid hh).trans (congrArg Host.Outcome.next (finish_of_work ?_ hc
      (LinesLaw_of_same hl rfl rfl rfl rfl rfl)))
    rw [frameCompletes_active hp he]
    simp [bufferFrame, takeWaiting, heardFrame, hb, hpr, hs, hc, countTo255]
  · have hrec := hostRecord_processed (f := { kind := 0x02, body := [] })
      (owner := fun s => sendAll (statusReply s) s) hh hpr rfl
    have hans : answer { frame := { kind := 0x02, body := [] }, cancelled := false, woke := false }
        (fun s => sendAll (statusReply s) s) (endProcessing s) = sendAll (statusReply s) (endProcessing s) := by
      have hlink : linkRefusal { frame := { kind := 0x02, body := [] }, cancelled := false, woke := false }
          (endProcessing s).pwc.power = none := by
        rw [show (endProcessing s).pwc.power = .active from hp]
        rfl
      simp only [answer, hlink]
      rfl
    obtain ⟨hch, hsil, hbuf, hproc⟩ := foldl_enqueue_same (statusReply s) (endProcessing s).hlc
    have hwork : takeWaiting (waitingCancels (sendAll (statusReply s) (endProcessing s))) = { s with
        hlc := (statusReply s).foldl (fun h r => h.enqueue r)
          { s.hlc with processing := some w, buffer := none } } := by
      have hcancel : waitingCancels (sendAll (statusReply s) (endProcessing s)) =
          sendAll (statusReply s) (endProcessing s) := by
        rw [sendAll_eq]
        simp [waitingCancels, endProcessing, he]
      rw [hcancel, sendAll_eq]
      rw [takeWaiting_free (by exact hproc) (by exact hh) (by exact hr)]
      have htaken : { (statusReply s).foldl (fun h r => h.enqueue r) (endProcessing s).hlc with
          processing := ((statusReply s).foldl (fun h r => h.enqueue r) (endProcessing s).hlc).buffer, buffer := none } =
          (statusReply s).foldl (fun h r => h.enqueue r) { s.hlc with processing := some w, buffer := none } := by
        rw [foldl_enqueue_frames, hbuf, show (endProcessing s).hlc.buffer = some w from hb]
        rfl
      exact congrArg (fun k : Hlc => ({ endProcessing s with hlc := k } : State)) htaken
    refine congrArg Host.Outcome.next (hrec.trans ?_)
    simp only [process, hans]
    obtain ⟨hch', hsil', -, -⟩ := foldl_enqueue_same (statusReply s)
      { s.hlc with processing := some w, buffer := none }
    exact finish_of_work hwork (hch'.trans hc) (LinesLaw_of_same hl rfl rfl rfl rfl hsil')
  · obtain ⟨v, hv⟩ : ∃ v, v = send (.ok 0x0E) (endProcessing s) := ⟨_, rfl⟩
    have hleft : OnlyChanges [.hlc] s v := by
      rw [hv]
      intro b hb
      cases b <;> simp_all [Same, endProcessing]
    have hvb : v.hlc.buffer = some w := by rw [hv]; simpa [endProcessing] using hb
    have hvp : v.hlc.processing = none := by rw [hv]; simp [endProcessing]
    have hans : answer { frame := { kind := 0x0E, body := [] }, cancelled := false, woke := false } answerStandby
        (endProcessing s) = beginEntry v := by
      have hlink : linkRefusal { frame := { kind := 0x0E, body := [] }, cancelled := false, woke := false }
          (endProcessing s).pwc.power = none := by
        rw [show (endProcessing s).pwc.power = .active from hp]
        rfl
      have hverdict : serviceVerdict 0x0E (endProcessing s).svc.mode (endProcessing s).svc.state = .pass :=
        verdict_idle hi rfl
      simp only [answer, hlink, hverdict]
      simp [answerStandby, endProcessing, hm, he, hv]
    have hrec := hostRecord_processed (f := { kind := 0x0E, body := [] }) (owner := answerStandby) hh hpr rfl
    have hpwc : v.pwc = s.pwc := hleft .pwc (by simp)
    have htaken := withdrawn_taken hvb hvp (hpwc ▸ hh) (hpwc ▸ hr) (hpwc ▸ he)
    have honly := entryWithdrawn_only w v
    have hsame : OnlyChanges [.clc, .ldt, .svc, .hlc, .stc] s (entryWithdrawn w v) := (hleft.trans honly).mono (by simp)
    have hsil : v.hlc.silent = s.hlc.silent := by rw [hv]; simp [endProcessing]
    have hchanges : v.hlc.changes = [] := by rw [hv]; simpa [endProcessing] using hc
    have hlines : LinesLaw (entryWithdrawn w v) :=
      LinesLaw_of_same hl (hsame .pwc (by simp)) (hsame .dsr (by simp)) (hsame .flt (by simp)) (hsame .params (by simp)) hsil
    refine ⟨entryWithdrawn w v, congrArg Host.Outcome.next (hrec.trans ?_), hpwc, ?_, rfl, rfl, ?_, ?_, hsame⟩
    · simp only [process, hans]
      exact finish_of_work htaken hchanges hlines
    · have hq : outgoing (entryWithdrawn w v).hlc = outgoing v.hlc := rfl
      rw [replies, hq, hv]
      simp [replies, outgoing_enqueue, endProcessing, TxRecord.isSnapshot, TxRecord.isStatusChange]
      rfl
    · simp [entryWithdrawn, isLoads]
    · simp [entryWithdrawn, isLoads]
  · rw [exec_hostFrameValid hh, frameCompletes_active hp he]
    refine congrArg Host.Outcome.next (congrArg finish ?_)
    simp [bufferFrame, takeWaiting, takesFrames, heardFrame, hb, hpr, hs, hc, hh, hr, addMatter]
  · obtain ⟨owner, ho⟩ := exec_commandOfFrame f
    obtain ⟨hpr, hb, hrc⟩ := hfree
    have harrives := frameCompletes_entry (f := f) hp he hs hpr hb hh hr
    have hheard : finish (frameCompletes f s) = entryMet f s := finish_of_work harrives hc ⟨hl.1, hl.2⟩
    have hnew : isProcessed f s = false := by simp [isProcessed, hpr]
    have hrec : hostRecord f owner s =
        process { frame := f, cancelled := true, woke := false } owner (entryMet f s) := by
      simp only [hostRecord, hh, hnew, hheard]
      simp [entryMet]
    refine (ho s).trans (congrArg Host.Outcome.next (hrec.trans ?_))
    refine finish_of_work (t := { answered [.refused f.kind .busy] s with
      pwc := { s.pwc with standbyEntry := false }
      stc := { s.stc with queue := s.stc.queue.filter fun b => b != .loadsA && b != .loadsB } }) ?_ ?_ ⟨?_, hl.2⟩
    · have hans : answer { frame := f, cancelled := true, woke := false } owner (endProcessing (entryMet f s)) =
          refuse f.kind .busy (endProcessing (entryMet f s)) := rfl
      have hempty : (refuse f.kind .busy (endProcessing (entryMet f s))).hlc.buffer = none := by
        simpa [refuse, endProcessing, entryMet] using hb
      have hended : (endProcessing (entryMet f s)).hlc = { s.hlc with silence := some (s.now + silencePeriod) } := by
        simp only [endProcessing, entryMet]
        rw [← hrc, ← hpr]
      have hqueue : (s.stc.queue.filter fun b => !isLoads b) =
          s.stc.queue.filter fun b => b != .loadsA && b != .loadsB :=
        List.filter_congr fun b _ => by cases b <;> rfl
      simp only [hans, Bool.false_eq_true, if_false]
      rw [waitingCancels_empty _ hempty, takeWaiting_empty _ hempty]
      simp only [refuse, send, hended, ← hqueue]
      rfl
    · simpa [answered] using hc
    · refine hl.1.trans (Eq.symm (ttfbDue_congr rfl rfl rfl ?_))
      simp [answered]

end Sys2Proof.Machine
end


/-! ### Frames that wake the part: O14 -/

section
/-!
PROOFS. What a wake leaves of each block, and the end of a wake with its frame's processing (O14).
-/
namespace Sys2Proof.Machine

/-! ### The tell age tested (R171) -/

/-- Whether the word is stale once its age has been tested. -/
def staleAfterTest (s : State) : Bool := s.hlc.stale || decide (s.hlc.lastTell + freshPeriod ≤ s.now)

theorem testTellAge_fresh {s : State} (h : staleAfterTest s = false) : testTellAge s = s := by
  simp only [staleAfterTest, Bool.or_eq_false_iff, decide_eq_false_iff_not] at h
  simp [testTellAge, h.2]

theorem testTellAge_eq (s : State) : testTellAge s =
    { s with sfe := (testTellAge s).sfe, jge := (testTellAge s).jge, hlc := (testTellAge s).hlc } := by
  unfold testTellAge
  split
  · unfold becomeStale disarmWatches setWatches setStale markIf mark
    simp only
    split <;> rfl
  · rfl

theorem testTellAge_hlc (s : State) : (testTellAge s).hlc = { s.hlc with
    stale := staleAfterTest s
    changes := if staleAfterTest s && !s.hlc.stale then addMatter .fwStale s.hlc.changes else s.hlc.changes } := by
  unfold testTellAge staleAfterTest
  by_cases h : s.hlc.lastTell + freshPeriod ≤ s.now
  · rw [if_pos h]
    refine (setStale_hlc true _).trans ?_
    cases hs : s.hlc.stale <;> simp [h]
  · rw [if_neg h]
    cases hs : s.hlc.stale <;> simp [h] <;> rw [← hs]

/-- The test leaves all but the circuits of the sense state, and a circuit's zero reference. -/
theorem testTellAge_sfe (s : State) :
    (testTellAge s).sfe = { s.sfe with circuits := (testTellAge s).sfe.circuits } ∧
      ∀ c, ((testTellAge s).sfe.circuits.get c).zero = (s.sfe.circuits.get c).zero := by
  unfold testTellAge
  split
  · refine ⟨by simp [becomeStale], fun c => ?_⟩
    rw [becomeStale_circuit]
    unfold staleCircuit enterPhase
    split <;> rfl
  · exact ⟨rfl, fun c => rfl⟩

/-! ### The wake, block by block (R195) -/

/-- A state whose blocks resume: the tell age has been tested in ACTIVE. -/
def resumed (z : State) : State :=
  { z with
    sfe := { z.sfe with
      circuits := z.sfe.circuits.mapAt (wakeCircuit z.params z.now z.hlc.word z.hlc.stale)
      supplyWindow := none, supplyDone := none, voltageMark := none, nextScan := z.now }
    clc := { z.clc with cycle := some ((z.clc.cycle.map fun y => { y with closing := false }).getD (newCycle z.now)) }
    jge := if z.hlc.stale then z.jge else { z.jge with watches := z.jge.watches.mapAt (evaluateWatch z) }
    dsr := { z.dsr with list := z.dsr.list.map (resumeLinger z.now) }
    hlc := { z.hlc with silence := some (z.now + silencePeriod) }
    pwc := { z.pwc with agingSince := some z.now } }

/-- The state before the blocks resume: ACTIVE, the tell age tested. -/
def woken (s : State) : State := testTellAge (setPower .active s)

theorem resumed_eq (z : State) : startAging (unparkChain (unparkDisplay (restartSilence
    (if (unparkSense z).hlc.stale = true then unparkSense z else evaluateWatches (unparkSense z))))) = resumed z := by
  have hwatch : evaluateWatch (unparkSense z) = evaluateWatch z := evaluateWatch_of_same rfl rfl rfl rfl
  have hstale : (unparkSense z).hlc.stale = z.hlc.stale := rfl
  unfold resumed
  cases h : z.hlc.stale
  · simp only [hstale, h, Bool.false_eq_true, if_false]
    rw [evaluateWatches, hwatch]
    simp only [startAging, unparkChain, unparkDisplay, setList, restartSilence, unparkSense, setClc, setWatches, h]
  · simp only [if_true, startAging, unparkChain, unparkDisplay, setList, restartSilence, unparkSense, setClc, h]

theorem wake_eq (s : State) : wake s = resumed (woken s) :=
  resumed_eq (woken s)

theorem woken_eq (s : State) : woken s =
    { s with
      sfe := (woken s).sfe, jge := (woken s).jge, hlc := (woken s).hlc, pwc := { s.pwc with power := .active } } := by
  unfold woken
  exact testTellAge_eq (setPower .active s)

theorem woken_hlc (s : State) : (woken s).hlc = { s.hlc with
    stale := staleAfterTest s
    changes := if staleAfterTest s && !s.hlc.stale then addMatter .fwStale s.hlc.changes else s.hlc.changes } :=
  testTellAge_hlc (setPower .active s)

theorem woken_fresh {s : State} (h : staleAfterTest s = false) : woken s = setPower .active s :=
  testTellAge_fresh h

/-! ### The frame that wakes the part (R195) -/

/-- The frame taken by the part it has woken; the event ends in processing, so that its changes only gather (R178). -/
def takenAwake (f : HostFrame) (r : State) : State :=
  refreshLines { heardFrame r with hlc := { (heardFrame r).hlc with
    processing := some { frame := f, cancelled := false, woke := true }, buffer := none } }

theorem huntAgain_hunting {s : State} (h : s.hlc.receiver = .hunting) : huntAgain s = s := by
  simp only [huntAgain]
  rw [← h]

theorem finish_frameResumes {f : HostFrame} {s z : State} (hh : s.pwc.held = false)
    (hr : s.pwc.restartPending = false) (hp : s.pwc.power = .standby) (he : s.pwc.standbyEntry = false)
    (harrives : frameArrives (huntAgain s) = resumed z) (hpwc : z.pwc = { s.pwc with power := .active })
    (hrcv : z.hlc.receiver = .hunting) (hzp : z.hlc.processing = none) (hzb : z.hlc.buffer = none) :
    finish (frameCompletes f s) = takenAwake f (resumed z) := by
  have hactive : (resumed z).pwc.power = .active := by simp [resumed, hpwc]
  have hheard : heard (resumed z) = heardFrame (resumed z) := by
    have hhunt : huntAgain (resumed z) = resumed z := huntAgain_hunting hrcv
    rw [← heard_active hactive, hhunt]
  have hwork : frameCompletes f s = { heardFrame (resumed z) with hlc := { (heardFrame (resumed z)).hlc with
      processing := some { frame := f, cancelled := false, woke := true }, buffer := none } } := by
    unfold frameCompletes
    rw [harrives, hheard]
    have hbuf : (heardFrame (resumed z)).hlc.buffer = none := hzb
    simp only [bufferFrame, hbuf, he, hp]
    rw [takeWaiting_free (by exact hzp) (by simpa [heardFrame, resumed, hpwc] using hh)
      (by simpa [heardFrame, resumed, hpwc] using hr)]
    rfl
  rw [hwork]
  refine (finish_noticeless (.inr (.inl ?_)))
  simp [waking]

theorem finish_frameWakes {f : HostFrame} {s : State} (hh : s.pwc.held = false) (hr : s.pwc.restartPending = false)
    (hp : s.pwc.power = .standby) (he : s.pwc.standbyEntry = false) (hpr : s.hlc.processing = none)
    (hb : s.hlc.buffer = none) : finish (frameCompletes f s) = takenAwake f (resumed (woken (huntAgain s))) := by
  have hz := woken_eq (huntAgain s)
  have hk := woken_hlc (huntAgain s)
  refine finish_frameResumes hh hr hp he ?_ ?_ ?_ ?_ ?_
  · rw [← wake_eq]
    exact if_pos hp
  · rw [hz]
    rfl
  · rw [hk]
    rfl
  · rw [hk]
    exact hpr
  · rw [hk]
    exact hb

/-- What a circuit's sense state becomes at the wake (R16). -/
theorem wakeCircuit_facts (p : Params) (now : Nat) (w : FunctionWord) (b : Bool) (c : Circuit) (x : CircuitSense) :
    (wakeCircuit p now w b c x).zero = x.zero ∧ (wakeCircuit p now w b c x).window = none ∧
      (b = true → (wakeCircuit p now w b c x).phase = .waiting ∧ (wakeCircuit p now w b c x).settleTimer = none ∧
        (wakeCircuit p now w b c x).settleEnd = none) ∧
      (b = false → 0 < p.settle.get c →
        (wakeCircuit p now w b c x).phase = (if w.getLsbD c.val then Phase.onSettling else Phase.offSettling) ∧
        (wakeCircuit p now w b c x).settleTimer = some (now + ms (p.settle.get c)) ∧
        (wakeCircuit p now w b c x).settleEnd = none) ∧
      (b = false → p.settle.get c = 0 → (wakeCircuit p now w b c x).settleTimer = none ∧
        (w.getLsbD c.val = true → (wakeCircuit p now w b c x).phase = .onSettled ∧
          (wakeCircuit p now w b c x).settleEnd = some now ∧ (wakeCircuit p now w b c x).nextStart = some now) ∧
        (w.getLsbD c.val = false → (wakeCircuit p now w b c x).phase = .offSettled ∧
          (wakeCircuit p now w b c x).settleEnd = none)) := by
  cases b with
  | true => exact ⟨rfl, rfl, fun _ => ⟨rfl, rfl, rfl⟩, fun h => (Bool.noConfusion h), fun h => (Bool.noConfusion h)⟩
  | false =>
    have hitem : itemOn w c = w.getLsbD c.val := rfl
    simp only [wakeCircuit, startSettling, hitem, Bool.false_eq_true, if_false]
    by_cases h0 : p.settle.get c = 0
    · simp only [h0, if_true]
      cases w.getLsbD c.val <;> simp [enterSettled, enterPhase]
    · simp only [h0, if_false]
      cases w.getLsbD c.val <;> simp [enterPhase, Nat.pos_of_ne_zero h0]

theorem woken_circuits (s : State) :
    (woken s).sfe = { s.sfe with circuits := (woken s).sfe.circuits } ∧
      ∀ c, ((woken s).sfe.circuits.get c).zero = (s.sfe.circuits.get c).zero := by
  unfold woken
  exact testTellAge_sfe (setPower .active s)

/-- What is known of the state before the blocks resume, when the part in `s` wakes to a frame. -/
structure Wakes (s z : State) : Prop where
  eq : z = { s with sfe := z.sfe, jge := z.jge, hlc := z.hlc, pwc := { s.pwc with power := .active } }
  hlc : z.hlc = { s.hlc with
    receiver := .hunting, stale := staleAfterTest s
    changes := if staleAfterTest s && !s.hlc.stale then addMatter .fwStale s.hlc.changes else s.hlc.changes }
  sfe : z.sfe = { s.sfe with circuits := z.sfe.circuits }
  zero : ∀ c, (z.sfe.circuits.get c).zero = (s.sfe.circuits.get c).zero
  jge : staleAfterTest s = false → z.jge = s.jge

theorem woken_wakes (s : State) : Wakes s (woken (huntAgain s)) := by
  obtain ⟨hsfe, hzero⟩ := woken_circuits (huntAgain s)
  refine ⟨woken_eq (huntAgain s), woken_hlc (huntAgain s), hsfe, hzero, fun h => ?_⟩
  rw [woken_fresh (by exact h)]
  rfl

section
variable {f : HostFrame} {s z : State} (h : Wakes s z)
include h

theorem Wakes.pwc : z.pwc = { s.pwc with power := .active } := by rw [h.eq]

theorem Wakes.now : z.now = s.now := by rw [h.eq]

theorem Wakes.params : z.params = s.params := by rw [h.eq]

theorem Wakes.dsr : z.dsr = s.dsr := by rw [h.eq]

theorem Wakes.clc : z.clc = s.clc := by rw [h.eq]

theorem Wakes.stale : z.hlc.stale = staleAfterTest s := by rw [h.hlc]

theorem Wakes.word : z.hlc.word = s.hlc.word := by rw [h.hlc]

theorem Wakes.only : OnlyChanges [.sfe, .jge, .hlc, .pwc] s z := by
  rw [h.eq]
  intro b hb
  cases b <;> simp_all [Same]

theorem Wakes.taken_pwc :
    (takenAwake f (resumed z)).pwc = { s.pwc with power := .active, wake := false, agingSince := some s.now } := by
  have hd : ∀ u : State, u.pwc.power = .active → wakeDue u = false := fun u hu => by simp [wakeDue, hu]
  simp only [takenAwake, refreshLines, heardFrame, resumed]
  rw [hd _ (by simp [h.pwc]), h.pwc, h.now]

theorem Wakes.taken_hlc : (takenAwake f (resumed z)).hlc = { s.hlc with
    stale := staleAfterTest s, silent := false, silence := some (s.now + silencePeriod), receiver := .hunting
    processing := some { frame := f, cancelled := false, woke := true }, buffer := none
    changes := if s.hlc.silent then
        addMatter .link (if staleAfterTest s && !s.hlc.stale then addMatter .fwStale s.hlc.changes else s.hlc.changes)
      else if staleAfterTest s && !s.hlc.stale then addMatter .fwStale s.hlc.changes else s.hlc.changes } := by
  simp only [takenAwake, refreshLines, heardFrame, resumed]
  rw [h.hlc, h.now]

theorem Wakes.taken_sfe : (takenAwake f (resumed z)).sfe = { s.sfe with
    circuits := z.sfe.circuits.mapAt (wakeCircuit s.params s.now s.hlc.word (staleAfterTest s))
    supplyWindow := none, supplyDone := none, voltageMark := none, nextScan := s.now } := by
  simp only [takenAwake, refreshLines, heardFrame, resumed]
  rw [h.sfe, h.params, h.now, h.word, h.stale]

theorem Wakes.taken_dsr : (takenAwake f (resumed z)).dsr = { s.dsr with
    list := s.dsr.list.map (resumeLinger s.now), ttfb := ttfbDue (takenAwake f (resumed z)) } := by
  have hd : (takenAwake f (resumed z)).dsr = { z.dsr with
      list := z.dsr.list.map (resumeLinger z.now), ttfb := ttfbDue (takenAwake f (resumed z)) } := rfl
  rw [hd, h.dsr, h.now]

theorem Wakes.taken_clc : (takenAwake f (resumed z)).clc = { s.clc with
    cycle := some ((s.clc.cycle.map fun y => { y with closing := false }).getD (newCycle s.now)) } := by
  have hd : (takenAwake f (resumed z)).clc = { z.clc with
    cycle := some ((z.clc.cycle.map fun y => { y with closing := false }).getD (newCycle z.now)) } := rfl
  rw [hd, h.clc, h.now]

theorem Wakes.taken_watches (hs : staleAfterTest s = false) :
    (takenAwake f (resumed z)).jge.watches = s.jge.watches.mapAt (evaluateWatch s) := by
  have hd : (takenAwake f (resumed z)).jge =
      if z.hlc.stale then z.jge else { z.jge with watches := z.jge.watches.mapAt (evaluateWatch z) } := rfl
  have hsame : evaluateWatch z = evaluateWatch s :=
    evaluateWatch_of_same (by rw [h.jge hs]) h.word (h.only .flt (by simp)) h.now
  rw [hd, h.stale, hs, hsame, h.jge hs]
  rfl

theorem Wakes.taken_only :
    OnlyChanges [.sfe, .clc, .jge, .dsr, .hlc, .pwc] s (takenAwake f (resumed z)) := by
  have hrest : OnlyChanges [.sfe, .clc, .jge, .dsr, .hlc, .pwc] z (takenAwake f (resumed z)) := by
    intro b hb
    cases b <;> simp_all [Same, takenAwake, refreshLines, heardFrame, resumed]
  exact (h.only.trans hrest).mono (by simp)

end

/-! ### The end of the wake (R195) -/

/-- What was last among those that leave stays so when some of the queue is withdrawn, itself not. -/
theorem outgoing_filter_last {h : Hlc} {keep : TxRecord → Bool} {pre : List TxRecord} {x : TxRecord}
    (hx : keep x = true) (e : outgoing h = pre ++ [x]) :
    ∃ pre', h.sending.toList ++ h.queue.filter keep = pre' ++ [x] := by
  unfold outgoing at e
  rcases List.eq_nil_or_concat h.queue with hq | ⟨q, y, hq⟩
  · exact ⟨pre, by simpa [hq] using e⟩
  · rw [hq, List.concat_eq_append, ← List.append_assoc] at e
    obtain ⟨-, hy⟩ := List.append_inj' e rfl
    cases hy
    exact ⟨h.sending.toList ++ q.filter keep, by simp [hq, hx]⟩

/-- The notices a wake ends with, before the census: the list and a STATUS-CHANGE. -/
def wakeNotices (s : State) : State := sendStatusChange (refreshLines (sendSnapshot s))

theorem wakeNotices_eq (s : State) : wakeNotices s =
    { s with
      hlc := (wakeNotices s).hlc, pwc := { s.pwc with wake := (wakeNotices s).pwc.wake }
      dsr := { s.dsr with
        reconcile := some (s.now + ms s.params.reconcile), mirror := .pending, ttfb := (wakeNotices s).dsr.ttfb } } := by
  unfold wakeNotices
  rw [sendStatusChange_eq, refreshLines, sendSnapshot_eq]

theorem wakeNotices_outgoing (s : State) : ∃ pre cs vs, outgoing (wakeNotices s).hlc =
    pre ++ [.snapshot s.dsr.list s.dsr.overflow (telltales s.dsr.list), .statusChange cs vs] := by
  obtain ⟨pre, hpre⟩ := outgoing_filter_last (keep := fun r => !r.isStatusChange) rfl (sendSnapshot_outgoing s)
  refine ⟨pre, gathered (refreshLines (sendSnapshot s)), statusValues (refreshLines (sendSnapshot s)),
    (sendStatusChange_outgoing _).trans ?_⟩
  rw [show (refreshLines (sendSnapshot s)).hlc = (sendSnapshot s).hlc from rfl, hpre, List.append_assoc]
  rfl

theorem wakeNotices_says (s : State) : Says [] s.hlc (wakeNotices s).hlc := by
  have h := (sendSnapshot_says s).trans (sendStatusChange_says (refreshLines (sendSnapshot s)))
  exact h

theorem leaveStandby_census {s : State} (ha : s.pwc.power = .active) (hn : s.clc.census = none)
    (hc : s.svc.state ≠ .capturing) : leaveStandby s = setClc (censusStarted s.now s.clc) (wakeNotices s) := by
  have he := wakeNotices_eq s
  have hpower : (wakeNotices s).pwc.power = .active := by rw [he]; exact ha
  have hnone : (wakeNotices s).clc.census = none := by rw [he]; exact hn
  have hfree : (wakeNotices s).svc.state ≠ .capturing := by rw [he]; exact hc
  have htrigger : leaveStandby s = startCensus (wakeNotices s) :=
    if_pos ⟨hpower, by rw [show (sendStatusChange (refreshLines (sendSnapshot s))).clc.census = none from hnone]; rfl⟩
  rw [htrigger, startCensus_alone hfree]
  rw [show (wakeNotices s).now = s.now from by rw [he], show (wakeNotices s).clc = s.clc from by rw [he]]

/-- The part when the frame that woke it has been refused as unknown. -/
def wakeEnded (f : HostFrame) (t : State) : State :=
  refreshLines (setClc (censusStarted t.now t.clc) (wakeNotices (endProcessing (refuse f.kind .unknownKind t))))

theorem process_wakes {f : HostFrame} {t : State} (hbuf : t.hlc.buffer = none) (ha : t.pwc.power = .active)
    (hn : t.clc.census = none) (hc : t.svc.state ≠ .capturing) (hk : isHostKind f.kind = false) :
    process { frame := f, cancelled := false, woke := true } id t = wakeEnded f t := by
  have hans : answer { frame := f, cancelled := false, woke := true } id t = refuse f.kind .unknownKind t := by
    have hlink : linkRefusal { frame := f, cancelled := false, woke := true } t.pwc.power = some .unknownKind := by
      simp [linkRefusal, hk]
    simp only [answer, hlink]
  have hleave := leaveStandby_census (s := endProcessing (refuse f.kind .unknownKind t)) ha hn hc
  obtain ⟨u, hu⟩ : ∃ u, u = setClc (censusStarted t.now t.clc)
      (wakeNotices (endProcessing (refuse f.kind .unknownKind t))) := ⟨_, rfl⟩
  have hsays := wakeNotices_says (endProcessing (refuse f.kind .unknownKind t))
  have hempty : u.hlc.buffer = none := by
    have h1 : u.hlc = (wakeNotices (endProcessing (refuse f.kind .unknownKind t))).hlc := by rw [hu]; rfl
    rw [h1, hsays.only]
    simpa [endProcessing, refuse] using hbuf
  have hquiet : u.hlc.changes = [] := by
    have h1 : u.hlc = (wakeNotices (endProcessing (refuse f.kind .unknownKind t))).hlc := by rw [hu]; rfl
    rw [h1]
    exact sendStatusChange_changes _
  simp only [process, hans, if_true]
  rw [hleave, show setClc (censusStarted (endProcessing (refuse f.kind .unknownKind t)).now
    (endProcessing (refuse f.kind .unknownKind t)).clc) _ = u from hu.symm, waitingCancels_empty _ hempty,
    takeWaiting_empty _ hempty, finish_noticeless (.inr (.inr hquiet)), hu]
  rfl

theorem refused_only (k : Byte) (r : Reason) (t : State) : OnlyChanges [.hlc] t (endProcessing (refuse k r t)) := by
  intro b hb
  cases b <;> simp_all [Same, endProcessing, refuse]

theorem started_only (k : Clc) (t : State) : OnlyChanges [.clc, .dsr, .pwc] t (refreshLines (setClc k t)) := by
  intro b hb
  cases b <;> simp_all [Same, refreshLines, setClc]

theorem wakeNotices_only (s : State) : OnlyChanges [.dsr, .hlc, .pwc] s (wakeNotices s) := by
  rw [wakeNotices_eq]
  intro b hb
  cases b <;> simp_all [Same]

theorem wake_ends {f : HostFrame} {s t : State} (hh : s.pwc.held = false) (hpr : s.hlc.processing = none)
    (hk : isHostKind f.kind = false) (htaken : finish (frameCompletes f s) = t)
    (hp : t.hlc.processing = some { frame := f, cancelled := false, woke := true }) (hbuf : t.hlc.buffer = none)
    (ha : t.pwc.power = .active) (hn : t.clc.census = none) (hc : s.svc.state ≠ .capturing)
    (honly : OnlyChanges [.sfe, .clc, .jge, .dsr, .hlc, .pwc] s t)
    (hlist : t.dsr.list = s.dsr.list.map (resumeLinger s.now)) (htable : t.clc.table = s.clc.table)
    (hreplies : replies t.hlc = replies s.hlc) :
    ∃ u pre cs vs, exec (.unknownKind f.kind f.body) s = .next u ∧
      outgoing u.hlc = pre ++ [.snapshot u.dsr.list u.dsr.overflow (telltales u.dsr.list), .statusChange cs vs] ∧
      replies u.hlc = replies s.hlc ++ [.refused f.kind .unknownKind] ∧
      u.hlc.processing = none ∧ u.hlc.buffer = none ∧ u.hlc.changes = [] ∧ u.pwc.power = .active ∧
      u.dsr.list = s.dsr.list.map (resumeLinger s.now) ∧ u.dsr.mirror = .pending ∧
      u.dsr.reconcile = some (s.now + ms s.params.reconcile) ∧ u.clc.census = some emptyRun ∧
      u.clc.table = s.clc.table ∧ OnlyChanges [.sfe, .clc, .jge, .dsr, .hlc, .pwc] s u := by
  have hnew : isProcessed f s = false := by simp [isProcessed, hpr]
  have hcap : t.svc.state ≠ .capturing := by rw [show t.svc = s.svc from honly .svc (by simp)]; exact hc
  have hnow : t.now = s.now := honly .now (by simp)
  have hparams : t.params = s.params := honly .params (by simp)
  have hexec : exec (.unknownKind f.kind f.body) s = .next (wakeEnded f t) := by
    refine (exec_unknownKind hk s).trans (congrArg Host.Outcome.next ?_)
    rw [← process_wakes hbuf ha hn hcap hk]
    simp only [hostRecord, hh, hnew, htaken]
    simp [hp]
  obtain ⟨z, hz⟩ : ∃ z, z = endProcessing (refuse f.kind .unknownKind t) := ⟨_, rfl⟩
  have hended : wakeEnded f t = refreshLines (setClc (censusStarted t.now t.clc) (wakeNotices z)) := by rw [hz]; rfl
  have hdsr : z.dsr = t.dsr := by rw [hz]; rfl
  have hsays := wakeNotices_says z
  have hnotices := wakeNotices_eq z
  obtain ⟨pre, cs, vs, hout⟩ := wakeNotices_outgoing z
  have hhlc : (wakeEnded f t).hlc = (wakeNotices z).hlc := by rw [hended]; rfl
  have hudsr : (wakeEnded f t).dsr = { t.dsr with
      reconcile := some (s.now + ms s.params.reconcile), mirror := .pending, ttfb := (wakeEnded f t).dsr.ttfb } := by
    have h1 : (wakeEnded f t).dsr = { (wakeNotices z).dsr with ttfb := (wakeEnded f t).dsr.ttfb } := by rw [hended]; rfl
    rw [h1, hnotices, hdsr, show z.now = s.now from by rw [hz]; exact hnow,
      show z.params = s.params from by rw [hz]; exact hparams]
  refine ⟨wakeEnded f t, pre, cs, vs, hexec, ?_, ?_, ?_, ?_, ?_, ?_, ?_, ?_, ?_, ?_, ?_, ?_⟩
  · rw [hhlc, hout, hdsr, hudsr]
  · rw [hhlc, hsays.replies, hz, ← hreplies, List.append_nil]
    exact (refuse_says f.kind .unknownKind t).replies
  · rw [hhlc, hsays.only, hz]
    rfl
  · rw [hhlc, hsays.only, hz]
    simpa [endProcessing, refuse] using hbuf
  · rw [hhlc]
    exact sendStatusChange_changes _
  · have h1 : (wakeEnded f t).pwc.power = (wakeNotices z).pwc.power := by rw [hended]; rfl
    rw [h1, hnotices, hz]
    exact ha
  · rw [hudsr]
    exact hlist
  · rw [hudsr]
  · rw [hudsr]
  · rw [hended]
    rfl
  · rw [hended]
    exact htable
  · have hrefused : OnlyChanges [.hlc] t z := by
      rw [hz]
      exact refused_only f.kind .unknownKind t
    have hlast : OnlyChanges [.clc, .dsr, .pwc] (wakeNotices z) (wakeEnded f t) := by
      rw [hended]
      exact started_only _ _
    exact (((honly.trans hrefused).trans (wakeNotices_only z)).trans hlast).mono (by simp)

/-- Settles O14: the wake, and its end with a frame the link refuses. -/
theorem aValidFrameWakesThePart : Obligations.AValidFrameWakesThePart := by
  intro f s hh hr hp he hpr hb
  have hw := woken_wakes s
  have htaken := finish_frameWakes (f := f) hh hr hp he hpr hb
  refine ⟨?_, fun hk hn hc => ?_⟩
  · refine ⟨_, staleAfterTest s, _, (exec_hostFrameValid hh).trans (congrArg Host.Outcome.next htaken), rfl, hw.taken_pwc,
      rfl, ?_, ?_, ?_, ?_, fun c => ?_, fun hs => ?_, ?_, ?_, ?_, hw.taken_only⟩
    · refine hw.taken_hlc.trans ?_
      simp [hb]
    · exact hw.taken_dsr
    · rw [hw.taken_sfe]
    · rw [hw.taken_sfe]
    · rw [hw.taken_sfe]
      obtain ⟨hzero, hwindow, hstale, hsettling, hsettled⟩ := wakeCircuit_facts s.params s.now s.hlc.word
        (staleAfterTest s) c ((woken (huntAgain s)).sfe.circuits.get c)
      simp only [PerCircuit.get_mapAt]
      exact ⟨hzero.trans (hw.zero c), hwindow, hstale, hsettling, hsettled⟩
    · exact hw.taken_watches hs
    · rw [hw.taken_clc]
    · rw [hw.taken_clc]
    · rw [hw.taken_clc]
      rfl
  · refine wake_ends hh hpr hk htaken ?_ ?_ ?_ ?_ hc hw.taken_only ?_ ?_ ?_
    · rw [hw.taken_hlc]
    · rw [hw.taken_hlc]
    · rw [hw.taken_pwc]
    · rw [hw.taken_clc]
      exact hn
    · rw [hw.taken_dsr]
    · rw [hw.taken_clc]
    · rw [hw.taken_hlc]
      simp [replies, outgoing]

end Sys2Proof.Machine
end


/-! ### The timers of the display and of service mode -/

section

/-! PROOFS. O52 and O53. -/

namespace Sys2Proof.Machine

/-- The timer of the RESOLVED entry of an id, when it runs. -/
theorem lingerOf_running {n d : Nat} {l : List DisplayEntry} {e : DisplayEntry}
    (h : l.find? (fun e => e.id = n ∧ e.state = .resolved) = some e) (hd : e.linger = some (.running d)) :
    lingerOf n l = some d := by
  have hp : (fun e : DisplayEntry => decide (e.id = n) && !e.live) = fun e => decide (e.id = n ∧ e.state = .resolved) := by
    funext e
    by_cases h : e.state = .resolved <;> simp [DisplayEntry.live, h]
  unfold lingerOf
  rw [hp, h, Option.bind_some, hd]

/-- Settles O52: both expiries. -/
theorem theTimersOfTheDisplay : Obligations.TheTimersOfTheDisplay := by
  intro s hh
  refine ⟨fun n e d hfind hd => ?_, fun d hd => ?_⟩
  · obtain ⟨z, hz⟩ : ∃ z, z = setList (s.dsr.list.filter (·.id != n)) (reach d s) := ⟨_, rfl⟩
    have hwork : exec (.lingerExpiry n) s = .next (finish (reevaluate (listView s.dsr) z)) := by
      refine congrArg Host.Outcome.next ((event_released _ s hh).trans (congrArg finish ?_))
      simp only [lingerOf_running hfind hd, hz]
      rfl
    refine ⟨_, hwork, ?_, ?_, fun x hx hn hres => ?_, ?_, ?_⟩
    · rw [reevaluate_eq, hz]
      rfl
    · rw [reevaluate_list, hz]
      rfl
    · rw [reevaluate_list] at hx
      have hmem := rebuildList_resolved hx (by simp [DisplayEntry.live, hres])
      rw [hz] at hmem
      simp [hn] at hmem
    · rw [reevaluate_contents, hz]
      rfl
    · have hz' : OnlyChanges [.now, .dsr] s z := by
        rw [hz]
        intro b hb
        cases b <;> simp_all [Same]
      exact (hz'.trans (reevaluate_only _ _)).mono (by simp)
  · refine congrArg Host.Outcome.next ((event_released _ s hh).trans (congrArg finish ?_))
    by_cases hm : s.dsr.mirror = .pending <;> simp [hd, hm, reach, setMirror, markIf, mark]

/-- Settles O53: each timer in its state, and the line by service mode and state. -/
theorem serviceTimersAndTheServiceLine : Obligations.ServiceTimersAndTheServiceLine := by
  intro s hh
  have falls : s.svc.line = true → s.svc.mode = true →
      exec .serviceLineFall s = .next (finish (serviceOff (setSvc { s.svc with line := false } s))) := by
    intro hl hm
    refine congrArg Host.Outcome.next ?_
    simp only [hl, hm, Bool.and_self, if_true]
    exact event_released _ _ hh
  refine ⟨fun k d hs hk hd => ?_, fun r hs hr => ?_, fun hm => ?_, fun hl hm => ⟨fun hs => ?_, fun k hs hk => ?_,
    fun r hs hr => ?_, fun hs => ?_⟩, rfl⟩
  · refine congrArg Host.Outcome.next ((event_released _ s hh).trans (congrArg finish ?_))
    simp only [hd, hs, if_true]
    exact endCapture_full _ hk
  · refine congrArg Host.Outcome.next ((event_released _ s hh).trans (congrArg finish ?_))
    simp only [hr, hs, if_true]
    exact endRelease_full _ hr
  · refine congrArg Host.Outcome.next ?_
    simp only [hm, Bool.and_false]
    rfl
  · exact (falls hl hm).trans (congrArg (Host.Outcome.next ∘ finish) (serviceOff_idle hs))
  · exact (falls hl hm).trans (congrArg (Host.Outcome.next ∘ finish) (serviceOff_capturing hs hk))
  · exact (falls hl hm).trans (congrArg (Host.Outcome.next ∘ finish) (serviceOff_releasePending hs hr))
  · refine (falls hl hm).trans (congrArg (Host.Outcome.next ∘ finish) ?_)
    simp [serviceOff, hs, setSvc, setSticky, stickWith]

end Sys2Proof.Machine
end


/-! ### Resets, and the expiry of a cadence watch -/

section

/-! PROOFS. O36 and O44. -/

namespace Sys2Proof.Machine

theorem hostRecord_held (f : HostFrame) (owner : State → State) {s : State} (hh : s.pwc.held = true) :
    hostRecord f owner s = s :=
  if_pos hh

/-- A held part takes no host frame and has no event. -/
theorem exec_held {i : Instr} {s : State} (hh : s.pwc.held = true)
    (h : i ∉ [.powerOn, .resetLineAssert, .resetLineRelease, .serviceLineFall, .serviceLineRise]) :
    exec i s = .next s := by
  cases i
  case powerOn | resetLineAssert | resetLineRelease | serviceLineFall | serviceLineRise => simp at h
  case restartReset =>
    refine congrArg Host.Outcome.next ?_
    rw [hh]
    rfl
  case strayChainFrame => exact congrArg Host.Outcome.next (if_pos hh)
  case unknownKind =>
    refine congrArg Host.Outcome.next ?_
    rw [event_held _ s hh, hostRecord_held _ _ hh, ite_self]
  case identify | status | census | readChain | readLoads | readFaults | display | setParam | readParam | writeRule
      | readRule | relearn | storeConfig | standby | restart | clearWake | serviceEnter | serviceLeave | serviceReset
      | commissionBegin | commissionConfirm | readCapture | releaseBegin | releaseConfirm | clearFaults | function
      | clusterReport =>
    exact congrArg Host.Outcome.next (hostRecord_held _ _ hh)
  all_goals exact congrArg Host.Outcome.next (event_held _ s hh)

/-- Settles O36: the two resets, and what a held part does. -/
theorem everyResetGivesTheResetState : Obligations.EveryResetGivesTheResetState := by
  intro s
  refine ⟨⟨_, rfl, doReset_afterReset _ _ s⟩, ⟨_, rfl, doReset_afterReset _ _ s⟩, fun hh => ⟨⟨_, ?_, doReset_afterReset _ _ s⟩,
    fun i hi => exec_held hh hi, ?_, rfl⟩, fun hh => ?_⟩
  · exact congrArg Host.Outcome.next (if_pos hh)
  · refine congrArg Host.Outcome.next ?_
    simp only [event_held serviceOff _ (show (setSvc { s.svc with line := false } s).pwc.held = true from hh), ite_self]
    rfl
  · exact congrArg Host.Outcome.next (if_neg (by simp [hh]))

/-- Settles O44: the watch is loaded again behind what its outcome did to the fast-flash requests. -/
theorem cadenceExpiryGivesItsOutcome : Obligations.CadenceExpiryGivesItsOutcome := by
  intro c a s hh ha
  obtain ⟨z, hz⟩ : ∃ z, z = if withheld s c then reach a.expires s
      else onFaults (applyBatch s.params [expiryVerdict c]) (reach a.expires s) := ⟨_, rfl⟩
  have hwork : exec (.cadenceExpiry c) s = .next (finish (reloadWatch c a.period z)) := by
    refine congrArg Host.Outcome.next ((event_released _ s hh).trans (congrArg finish ?_))
    simp only [ha, hz]
    rfl
  have hjge : z.jge = s.jge ∧ z.now = max s.now a.expires := by
    rw [hz]
    split
    · exact ⟨rfl, rfl⟩
    · rw [onFaults_eq]
      exact ⟨rfl, rfl⟩
  have hreload : OnlyChanges [.jge] z (reloadWatch c a.period z) := by
    intro b hb
    cases b <;> simp_all [Same, reloadWatch]
  refine ⟨reloadWatch c a.period z, _, hwork, hjge.2, rfl, ?_, fun hcond => ?_, fun hc hv hm => ?_⟩
  · have hload : loadValue z.flt c a.period =
        if (c = 0 ∧ z.flt.fastLeft = true) ∨ (c = 1 ∧ z.flt.fastRight = true) then a.period / 2 else a.period := by
      simp [loadValue, halved]
    simp only [reloadWatch, loadWatch, hload, hjge.1]
  · have hw : withheld s c = true := by simpa [withheld, or_assoc, Option.isSome_iff_ne_none] using hcond
    rw [if_pos hw] at hz
    have hz' : OnlyChanges [.now] s z := by
      rw [hz]
      intro b hb
      cases b <;> simp_all [Same]
    exact (hz'.trans hreload).mono (by simp)
  · have hw : ¬withheld s c = true := by simp [withheld, hc, hv, hm]
    rw [if_neg hw] at hz
    refine ⟨?_, ?_⟩
    · rw [show (reloadWatch c a.period z).flt = z.flt from rfl, hz, onFaults_contents]
      rfl
    · have hz' : OnlyChanges [.now, .flt, .dsr, .hlc, .pwc] s z := by
        rw [hz, onFaults_eq]
        intro b hb
        cases b <;> simp_all [Same]
      exact (hz'.trans hreload).mono (by simp)

end Sys2Proof.Machine
end


/-! ### The part's frames on the chain line, and the poll cycles -/

section

/-! PROOFS. O45 and O51. -/

namespace Sys2Proof.Machine

/-- The next slot a cycle visits: the first from its position on that is not LOST, or any while the counter is 0. -/
theorem nextPlace_eq_some {k : Clc} {pos i : Nat} {x : Slot} (hpos : pos ≤ i) (hx : k.table[i]? = some x)
    (hvisit : x.state ≠ .lost ∨ k.cycleCounter = 0)
    (hbefore : ∀ j z, pos ≤ j → j < i → k.table[j]? = some z → z.state = .lost ∧ k.cycleCounter ≠ 0) :
    nextPlace k pos = some i := by
  have hat : ∀ (j : Nat) (hj : j < (k.table.zipIdx.drop pos).length),
      ∃ z, k.table[pos + j]? = some z ∧ (k.table.zipIdx.drop pos)[j] = (z, pos + j) := by
    intro j hj
    have hj' := hj
    simp only [List.length_drop, List.length_zipIdx] at hj'
    exact ⟨k.table[pos + j], List.getElem?_eq_getElem (by omega), by simp⟩
  have hlt : i < k.table.length := (List.getElem?_eq_some_iff.1 hx).1
  have hfind : (k.table.zipIdx.drop pos).find? (fun x => visitable k.cycleCounter x.1) = some (x, i) := by
    rw [List.find?_eq_some_iff_getElem]
    refine ⟨by simpa [visitable] using hvisit, i - pos, by simp; omega, ?_, fun j hj => ?_⟩
    · obtain ⟨z, hz, he⟩ := hat (i - pos) (by simp; omega)
      rw [Nat.add_sub_cancel' hpos] at hz he
      rw [he, Option.some.inj (hz.symm.trans hx)]
    · obtain ⟨z, hz, he⟩ := hat j (by simp; omega)
      rw [he]
      have hlost := hbefore (pos + j) z (Nat.le_add_right _ _) (by omega) hz
      simp [visitable, hlost]
  rw [nextPlace, hfind]
  rfl

theorem rollTime (number slot : Nat) : chainFrameTime (sentFrame .roll number slot) = 2604 := by
  simp [sentFrame, chainFrame, chainFrameTime]

theorem pollTime (number slot : Nat) : chainFrameTime (sentFrame .poll number slot) = 2083 := by
  simp [sentFrame, chainFrame, chainFrameTime]

theorem assignTime (a : Assign) (number slot : Nat) : chainFrameTime (sentFrame (.assign a) number slot) = 6250 := by
  simp [sentFrame, chainFrame, chainFrameTime, assignPayload, toBigEndian_length]

/-- Settles O45: each of the five commands. -/
theorem thePartSendsItsFrames : Obligations.ThePartSendsItsFrames := by
  intro s hh
  refine ⟨fun run start hc hl hstart => ⟨fun ht => ?_, fun a ht => ?_⟩,
    fun y i x start hc hv hl hy hp hpos hx hvisit hbefore hstart => ?_, fun v d start hv hl hd hstart => ?_,
    fun x ends hl => ?_⟩
  · refine congrArg Host.Outcome.next ((event_released _ s hh).trans (congrArg finish ?_))
    simp only [hc, ht, hl, hstart, sendTask, beginFrame, rollTime]
    rfl
  · refine congrArg Host.Outcome.next ((event_released _ s hh).trans (congrArg finish ?_))
    simp only [hc, ht, hl, hstart, sendTask, beginFrame, assignTime]
    rfl
  · refine congrArg Host.Outcome.next ((event_released _ s hh).trans (congrArg finish ?_))
    simp only [hc, hv, hl, hy, nextPlace_eq_some hpos hx hvisit hbefore, if_neg hp, hstart, beginVisit, beginFrame, pollTime,
      setClc, reach, lineReady]
  · refine congrArg Host.Outcome.next ((event_released _ s hh).trans (congrArg finish ?_))
    simp only [hv, hl, hd, hstart, beginFrame, pollTime]
    rfl
  · refine congrArg Host.Outcome.next ((event_released _ s hh).trans (congrArg finish ?_))
    simp only [hl]
    rfl

theorem censusEndsCapture_svc (s : State) : (censusEndsCapture s).svc = captureAborted s.svc := by
  unfold censusEndsCapture captureAborted
  split <;> rfl

/-- What a triggered census leaves: an empty run whose first ROLL is due, and no capture. -/
theorem startCensus_leaves (s : State) :
    (startCensus s).clc = censusStarted s.now s.clc ∧ (startCensus s).svc = captureAborted s.svc ∧
      OnlyChanges [.clc, .svc, .hlc] s (startCensus s) := by
  rw [startCensus_started]
  refine ⟨?_, ?_, ?_⟩
  · rw [censusEndsCapture_eq]
    rfl
  · rw [censusEndsCapture_svc]
    rfl
  · rw [censusEndsCapture_eq]
    intro b hb
    cases b <;> simp_all [Same]

theorem triggerCensus_starts {s : State} (hp : s.pwc.power = .active) (hc : s.clc.census = none) :
    triggerCensus s = startCensus s :=
  if_pos ⟨hp, by simp [hc]⟩

theorem triggerCensus_idle {s : State} (h : s.pwc.power ≠ .active ∨ s.clc.census ≠ none) : triggerCensus s = s :=
  if_neg (by
    rintro ⟨hp, hc⟩
    exact h.elim (· hp) (· (Option.isNone_iff_eq_none.1 hc)))

/-- Settles O51: the end of a cycle, the standby cycle, the hold-off timer and the frames outside an exchange. -/
theorem cyclesHoldOffAndStrayFrames : Obligations.CyclesHoldOffAndStrayFrames := by
  intro s hh
  refine ⟨fun y endsAt hc hv hy hnone hends => ?_, fun hp => ?_, fun d hd => ⟨fun hno => ?_, fun ht hp hc => ?_⟩,
    fun f => ⟨?_, fun hl => ⟨?_, ?_⟩⟩⟩
  · refine congrArg Host.Outcome.next ((event_released _ s hh).trans (congrArg finish ?_))
    have hplace : nextPlace s.clc y.pos = none := Option.isNone_iff_eq_none.1 ((nextPlace_isNone_iff _ _).2 hnone)
    have hend : endsAt = max s.now (cycleEnd s.pwc.power y) := hends
    simp only [hc, hv, hy, hplace, hend, setClc, reach, newCycle, stepCounter]
    rfl
  · refine congrArg Host.Outcome.next ((event_released _ s hh).trans (congrArg finish ?_))
    simp only [if_pos hp]
    rfl
  · refine congrArg Host.Outcome.next ((event_released _ s hh).trans (congrArg finish ?_))
    simp only [hd]
    by_cases ht : s.clc.pendingTrigger = true
    · rw [if_pos ht, triggerCensus_idle (by simpa [ht] using hno)]
      rfl
    · rw [if_neg ht]
      rfl
  · obtain ⟨z, hz⟩ : ∃ z, z = setClc { s.clc with holdoff := none, pendingTrigger := false } (reach d s) := ⟨_, rfl⟩
    have hwork : exec .holdoffExpiry s = .next (finish (startCensus z)) := by
      refine congrArg Host.Outcome.next ((event_released _ s hh).trans (congrArg finish ?_))
      rw [← triggerCensus_starts (s := z) (by rw [hz]; exact hp) (by rw [hz]; exact hc), hz]
      simp only [hd, if_pos ht]
      rfl
    obtain ⟨hclc, hsvc, honly⟩ := startCensus_leaves z
    have hz' : OnlyChanges [.now, .clc] s z := by
      rw [hz]
      intro b hb
      cases b <;> simp_all [Same]
    refine ⟨_, hwork, ?_, ?_, ?_, ?_, ?_, ?_, ?_, (hz'.trans honly).mono (by simp)⟩
    · exact (show (startCensus z).now = z.now from honly .now (by simp)).trans (by rw [hz]; rfl)
    · rw [hclc]; rfl
    · rw [hclc]; rfl
    · rw [hclc]; rfl
    · rw [hclc]; rfl
    · rw [hclc, hz]; rfl
    · rw [hsvc, hz]; rfl
  · exact congrArg Host.Outcome.next (if_neg (by simp [hh]))
  · refine congrArg Host.Outcome.next ((event_released _ s hh).trans (congrArg finish ?_))
    cases hline : s.clc.line with
    | window x closes => exact absurd hline (hl x closes)
    | sending _ _ => rfl
    | idle => rfl
  · refine congrArg Host.Outcome.next ((event_released _ s hh).trans (congrArg finish ?_))
    cases hline : s.clc.line with
    | window x closes => exact absurd hline (hl x closes)
    | sending _ _ => rfl
    | idle => rfl

end Sys2Proof.Machine
end


/-! ### The scan, the windows it fills and the settle timers -/

section

/-! PROOFS. O40 and O41. -/

namespace Sys2Proof.Machine

theorem set_set {α : Type} (p : PerCircuit α) (c : Circuit) (a b : α) : (p.set c a).set c b = p.set c b := by
  apply PerCircuit.ext_get
  intro d
  by_cases h : d = c
  · subst h
    rw [PerCircuit.get_set_same, PerCircuit.get_set_same]
  · simp [PerCircuit.get_set_other _ _ _ _ h]

theorem markIf_eq (b : Bool) (m : Matter) (s : State) :
    markIf b m s = { s with hlc := { s.hlc with changes := if b then addMatter m s.hlc.changes else s.hlc.changes } } := by
  cases b <;> rfl

/-- A flag that follows b names its matter when it was not b. -/
theorem markIf_bne (a b : Bool) (m : Matter) (s : State) :
    markIf (a != b) m s =
      { s with hlc := { s.hlc with changes := if a = b then s.hlc.changes else addMatter m s.hlc.changes } } := by
  by_cases h : a = b <;> simp [markIf_eq, h]

theorem mem_markIf {b : Bool} {m n : Matter} {s : State} :
    n ∈ (markIf b m s).hlc.changes ↔ n ∈ s.hlc.changes ∨ (n = m ∧ b = true) := by
  rw [markIf_eq]
  cases b <;> simp [mem_addMatter]

/-- A completed zero window: the circuit it leaves, and the two flags' changes. -/
theorem completeZero_eq (c : Circuit) (w : Window) (s : State) :
    completeZero c w s =
      markIf ((s.sfe.circuits.get c).senseSat != w.saturated) (.senseSat c)
        (markIf ((s.sfe.circuits.get c).leak != decide (zeroMax < w.mean)) (.leak c)
          (setCircuit c { s.sfe.circuits.get c with
            done := none, zero := min w.mean zeroMax, leak := decide (zeroMax < w.mean), senseSat := w.saturated } s)) := by
  simp [completeZero, setLeak, setSenseSat, setCircuit, markIf_eq, set_set]

/-- Settles O41: the supply window, the zero window and the settle timer. -/
theorem windowsAndSettlingComplete : Obligations.WindowsAndSettlingComplete := by
  intro s hh
  refine ⟨fun w d hp hd => ⟨_, _, rfl, rfl, ?_⟩, fun c x w d hx hph hd => ?_,
    fun c x d hp hx hd => ⟨fun hph => ?_, fun hph => ?_⟩⟩
  · refine congrArg Host.Outcome.next ((event_released _ s hh).trans (congrArg finish ?_))
    simp only [hd, if_neg hp, completeSupply, setVoltage, markIf_bne]
    rfl
  · subst hx
    have hwork : exec (.zeroWindowComplete c) s = .next (finish (completeZero c w (reach d s))) := by
      refine congrArg Host.Outcome.next ((event_released _ s hh).trans (congrArg finish ?_))
      simp only [hph, hd]
    refine ⟨_, _, hwork, rfl, ?_, ?_, ?_, fun m => ?_, ?_⟩
    · simp [completeZero_eq, markIf_eq, setCircuit]
    · simp [completeZero_eq, markIf_eq, setCircuit]
      rfl
    · simp [completeZero_eq, markIf_eq, setCircuit]
    · rw [completeZero_eq, mem_markIf, mem_markIf, or_assoc]
      simp only [bne_iff_ne]
      rfl
    · intro b hb
      cases b <;> simp_all [Same, completeZero_eq, markIf_eq, setCircuit]
  · subst hx
    refine congrArg Host.Outcome.next ((event_released _ s hh).trans (congrArg finish ?_))
    simp only [hd, if_pos hp, reach_sfe, expireSettle, hph]
    rfl
  · subst hx
    refine congrArg Host.Outcome.next ((event_released _ s hh).trans (congrArg finish ?_))
    simp only [hd, if_pos hp, reach_sfe, expireSettle, hph]
    rfl

theorem sampleCurrent_eq (gain : Nat) (code : BitVec 12) :
    sampleCurrent gain code = min ((code.toNat * gain * 2 + 1000) / 2000) 30000 := by
  have h : roundHalfUp (code.toNat * gain) 1000 = (code.toNat * gain * 2 + 1000) / 2000 := by
    unfold roundHalfUp
    omega
  rw [sampleCurrent, h]
  rfl

/-- The scan's supply window: filled, or with one sample more. -/
theorem scanSupply_cases {p : Params} {t : Nat} {code : BitVec 12} {f : Sfe} {w : SupplyWindow}
    (hw : w = f.supplyWindow.getD { len := p.window, sum := 0, count := 0 }) :
    (w.count + 1 < w.len → (scanSupply p t code f).supplyDone = f.supplyDone ∧
      (scanSupply p t code f).supplyWindow = some { w with sum := w.sum + code.toNat * 10, count := w.count + 1 }) ∧
    (w.len ≤ w.count + 1 → (scanSupply p t code f).supplyWindow = none ∧
      (scanSupply p t code f).supplyDone =
        some ({ w with sum := w.sum + code.toNat * 10, count := w.count + 1 }, t + scanPeriod)) := by
  unfold scanSupply
  simp only [← hw]
  refine ⟨fun h => ?_, fun h => ?_⟩
  · rw [if_neg (by omega)]
    exact ⟨rfl, rfl⟩
  · rw [if_pos h]
    exact ⟨rfl, rfl⟩

theorem scanSupply_rest (p : Params) (t : Nat) (code : BitVec 12) (f : Sfe) :
    (scanSupply p t code f).supplyReading = f.supplyReading ∧ (scanSupply p t code f).voltage = f.voltage ∧
      (scanSupply p t code f).circuits = f.circuits := by
  unfold scanSupply
  simp only
  split <;> exact ⟨rfl, rfl, rfl⟩

/-- A scan takes a sample of an OFF-SETTLED circuit, and of an ON-SETTLED one with a window in progress or due. -/
theorem takesSample_iff (t : Nat) (x : CircuitSense) : takesSample t x = true ↔
    x.phase = .offSettled ∨ (x.phase = .onSettled ∧ (x.window ≠ none ∨ ∃ d, x.nextStart = some d ∧ d ≤ t)) := by
  unfold takesSample
  cases x.phase <;> simp [Option.isSome_iff_ne_none, Option.any_eq_true]

theorem settleBefore_none {t : Nat} {x : CircuitSense} (h : x.settleTimer = none) : settleBefore t x = x := by
  simp [settleBefore, h]

/-- Settles O40: a scan out of STANDBY, window by window. -/
theorem aScanTakesItsSamples : Obligations.AScanTakesItsSamples := by
  intro codes s hh
  refine ⟨fun hp => congrArg Host.Outcome.next ((event_released _ s hh).trans (congrArg finish (if_pos hp))),
    fun hp => ?_⟩
  have hwork : exec (.scan codes) s = .next (finish (scanAt codes (max s.now s.sfe.nextScan) s)) :=
    congrArg Host.Outcome.next ((event_released _ s hh).trans (congrArg finish (if_neg hp)))
  obtain ⟨t, ht⟩ : ∃ t, t = max s.now s.sfe.nextScan := ⟨_, rfl⟩
  rw [← ht] at hwork
  obtain ⟨hreading, hvoltage, hcircuits⟩ := scanSupply_rest s.params t codes.supply s.sfe
  have hcircuit : ∀ c, (scanAt codes t s).sfe.circuits.get c = scanCircuit s.params t codes c (s.sfe.circuits.get c) := by
    intro c
    simp [scanAt, hcircuits]
  refine ⟨_, t, hwork, ht, rfl, rfl, hreading, hvoltage, fun w hw => scanSupply_cases hw,
    fun c x w hx hsettle hw => ?_, fun c d hd hlt hph => ?_, fun c d hd hle hph => ?_, ?_⟩
  · subst hx
    rw [hcircuit, scanCircuit, settleBefore_none hsettle]
    refine ⟨fun htakes => ?_, fun hoff hon => ?_⟩
    · have hwin : w = ((s.sfe.circuits.get c).window.getD (Window.start s.params.window)).add
          (sampleCurrent (s.params.gain.get c) (codes.current.get c)) (sampleSupply codes.supply)
          (codeSaturated (codes.current.get c)) := by
        rw [hw, sampleCurrent_eq]
        rfl
      rw [if_pos ((takesSample_iff _ _).2 htakes), takeSample, ← hwin]
      by_cases hfull : w.len ≤ w.count <;> simp [Window.full, hfull]
    · refine if_neg fun htakes => ?_
      rcases (takesSample_iff _ _).1 htakes with h | ⟨h, hwin | ⟨d, hd, hle⟩⟩
      · exact hoff h
      · exact hwin (hon h).1
      · exact absurd ((hon h).2 d hd) (by omega)
  · have hno : takesSample t (s.sfe.circuits.get c) = false := by
      simp only [List.mem_cons, List.not_mem_nil, or_false] at hph
      rcases hph with h | h <;> simp [takesSample, h]
    rw [hcircuit, scanCircuit, settleBefore, hd]
    simp only [if_neg (Nat.not_le.2 hlt), hno]
    rfl
  · have hsettled : settleBefore t (s.sfe.circuits.get c) = enterSettled true d (s.sfe.circuits.get c) := by
      simp only [settleBefore, hd, if_pos hle, expireSettle, hph]
    rw [hcircuit, scanCircuit, hsettled]
    split
    · unfold takeSample
      simp only
      split <;> exact ⟨rfl, rfl⟩
    · exact ⟨rfl, rfl⟩
  · intro b hb
    cases b <;> simp_all [Same, scanAt]

end Sys2Proof.Machine
end


/-! ### Answers on the chain line: the exchanges of a census -/

section

/-! PROOFS. O46 and O47. -/

namespace Sys2Proof.Machine

/-! ### The classification of an answer (R201) -/

theorem toList_all {α : Type} (p : PerCircuit α) (f : α → Bool) : p.toList.all f = true ↔ ∀ c, f (p.get c) = true := by
  constructor
  · intro h c
    simp only [PerCircuit.toList, List.all_cons, List.all_nil, Bool.and_true, Bool.and_eq_true] at h
    obtain ⟨h0, h1, h2, h3, h4, h5, h6, h7⟩ := h
    fin_cases c <;> assumption
  · intro h
    simp only [PerCircuit.toList, List.all_cons, List.all_nil, Bool.and_true, Bool.and_eq_true]
    exact ⟨h 0, h 1, h 2, h 3, h 4, h 5, h 6, h 7⟩

/-- What every answer that is classified has: its CRC, its length, and the length of its type. -/
theorem classify_sound {x : Exchange} {slot : Nat} {f : ChainFrame} {a : Answer} (h : classify x slot f = some a) :
    f.crc = crc8 (f.addr :: f.ty :: f.len :: f.payload) ∧ f.payload.length = f.len.toNat ∧
      answerLength f.ty.toNat = some f.len.toNat := by
  unfold classify at h
  split at h
  · exact absurd h (by simp)
  · rename_i hwf
    simpa [chainCrcGood, not_or] using hwf

theorem chainFrame_sound {addr ty : Nat} {payload : List Byte} (hlen : payload.length < 256)
    (hty : answerLength (ty % 256) = some payload.length) :
    ¬(chainCrcGood (chainFrame addr ty payload) = false ∨
      (chainFrame addr ty payload).payload.length ≠ (chainFrame addr ty payload).len.toNat ∨
      answerLength (chainFrame addr ty payload).ty.toNat ≠ some (chainFrame addr ty payload).len.toNat) := by
  simp only [chainCrcGood, chainFrame, BitVec.toNat_ofNat]
  simp [Nat.mod_eq_of_lt hlen, hty]

theorem classify_rollAnswer {slot : Nat} {payload : List Byte} (hlen : payload.length = 10)
    (hlamps : ∀ c, (lampsAt payload 6).get c ≤ 4) :
    classify .roll slot (chainFrame 0 2 payload) =
      some (.rollAnswer { identity := identityAt payload 0, lamps := lampsAt payload 6 }) := by
  unfold classify
  rw [if_neg (chainFrame_sound (by omega) (by rw [hlen]; rfl))]
  exact if_pos ⟨rfl, (toList_all _ _).2 fun c => decide_eq_true (hlamps c)⟩

theorem classify_roll_invalid {slot : Nat} {f : ChainFrame}
    (h : f.ty ≠ 2 ∨ f.addr ≠ 0 ∨ f.len ≠ 10 ∨ f.crc ≠ crc8 (f.addr :: f.ty :: f.len :: f.payload) ∨
      ∃ c, 4 < (lampsAt f.payload 6).get c) : classify .roll slot f = none := by
  by_contra hc
  obtain ⟨a, ha⟩ := Option.ne_none_iff_exists'.1 hc
  obtain ⟨hcrc, -, hlen⟩ := classify_sound ha
  have hty : f.ty.toNat = 2 ∧ f.addr.toNat = 0 ∧ ∀ c, (lampsAt f.payload 6).get c ≤ 4 := by
    unfold classify at ha
    split at ha
    · exact absurd ha (by simp)
    · split at ha
      case h_1 _ _ h2 =>
        simp only at ha
        split at ha
        · rename_i hok
          exact ⟨h2, hok.1, fun c => by simpa using (toList_all _ _).1 hok.2 c⟩
        · exact absurd ha (by simp)
      all_goals simp_all
  obtain ⟨h2, h0, hlamps⟩ := hty
  have hl : f.len.toNat = 10 := by
    rw [h2] at hlen
    exact (Option.some.inj hlen).symm
  rcases h with h | h | h | h | ⟨c, h⟩
  · exact h (BitVec.eq_of_toNat_eq h2)
  · exact h (BitVec.eq_of_toNat_eq h0)
  · exact h (BitVec.eq_of_toNat_eq hl)
  · exact h hcrc
  · exact absurd (hlamps c) (by omega)

theorem assignPayload_length (a : Assign) (number : Nat) : (assignPayload a number).length = 8 := by
  simp [assignPayload, toBigEndian_length]

/-- An ASSIGN's answer is the echo of some payload, or none. -/
theorem classify_assign (a : Assign) (slot : Nat) (f : ChainFrame) :
    classify (.assign a) slot f = none ∨
      (classify (.assign a) slot f = some (.echo f.payload) ∧ f = chainFrame 0 4 f.payload) := by
  by_cases hc : classify (.assign a) slot f = none
  · exact .inl hc
  · obtain ⟨b, hb⟩ := Option.ne_none_iff_exists'.1 hc
    obtain ⟨hcrc, hpay, -⟩ := classify_sound hb
    refine .inr ?_
    have hty : b = .echo f.payload ∧ f.ty.toNat = 4 ∧ f.addr.toNat = 0 := by
      unfold classify at hb
      split at hb
      · exact absurd hb (by simp)
      · split at hb
        case h_2 _ _ _ h4 =>
          split at hb
          · rename_i h0
            exact ⟨(Option.some.inj hb).symm, h4, h0⟩
          · exact absurd hb (by simp)
        all_goals simp_all
    obtain ⟨rfl, h4, h0⟩ := hty
    have haddr : f.addr = BitVec.ofNat 8 0 := BitVec.eq_of_toNat_eq h0
    have hty : f.ty = BitVec.ofNat 8 4 := BitVec.eq_of_toNat_eq h4
    have hlen : f.len = BitVec.ofNat 8 f.payload.length := by
      rw [hpay]
      simp
    refine ⟨hb, ?_⟩
    obtain ⟨addr, ty, len, payload, crc⟩ := f
    simp only at haddr hty hlen hcrc
    simp only [chainFrame]
    rw [hcrc, haddr, hty, hlen]
    rfl

theorem classify_echo (a b : Assign) (slot number : Nat) :
    classify (.assign b) slot (chainFrame 0 4 (assignPayload a number)) = some (.echo (assignPayload a number)) := by
  unfold classify
  rw [if_neg (chainFrame_sound (by simp [assignPayload_length]) (by rw [assignPayload_length]; rfl))]
  rfl

/-! ### The ends of an exchange -/

theorem exec_answered {s : State} {x : Exchange} {closes : Nat} {f : ChainFrame} {a : Answer} (hh : s.pwc.held = false)
    (hl : s.clc.line = .window x closes) (hc : classify x (s.clc.visit.elim 0 (·.slot)) f = some a) :
    exec (.chainAnswerComplete f) s = .next (finish (answerExchange x a s)) := by
  refine congrArg Host.Outcome.next ((event_released _ s hh).trans (congrArg finish ?_))
  simp only [hl, hc]

theorem exec_invalid {s : State} {x : Exchange} {closes : Nat} {f : ChainFrame} (hh : s.pwc.held = false)
    (hl : s.clc.line = .window x closes) (hc : classify x (s.clc.visit.elim 0 (·.slot)) f = none) :
    exec (.chainAnswerComplete f) s = .next (finish (failExchange x s.now s)) := by
  refine congrArg Host.Outcome.next ((event_released _ s hh).trans (congrArg finish ?_))
  simp only [hl, hc]

theorem exec_abandoned {s : State} {x : Exchange} {closes : Nat} (hh : s.pwc.held = false)
    (hl : s.clc.line = .window x closes) :
    exec .chainAnswerAbandon s = .next (finish (failExchange x (s.now - chainIdle) s)) := by
  refine congrArg Host.Outcome.next ((event_released _ s hh).trans (congrArg finish ?_))
  simp only [hl]

theorem exec_unanswered {s : State} {x : Exchange} {closes : Nat} (hh : s.pwc.held = false)
    (hl : s.clc.line = .window x closes) :
    exec .answerWindowClose s = .next (finish (failExchange x (closes - answerWindow) (reach closes s))) := by
  refine congrArg Host.Outcome.next ((event_released _ s hh).trans (congrArg finish ?_))
  simp only [hl]

theorem failExchange_roll {s : State} {run : CensusRun} (idle : Nat) (h : s.clc.census = some run) :
    failExchange .roll idle s = rollUnanswered run (endExchange idle s) := by
  simp only [failExchange, h]

theorem failExchange_assign {s : State} {run : CensusRun} (a : Assign) (idle : Nat) (h : s.clc.census = some run) :
    failExchange (.assign a) idle s = assignFailed a run (endExchange idle s) := by
  simp only [failExchange, h]

/-- A part answers an ASSIGN with its echo, or the exchange has failed. -/
theorem exec_notEchoed {s : State} {run : CensusRun} {a : Assign} {closes : Nat} {f : ChainFrame}
    (hh : s.pwc.held = false) (hc : s.clc.census = some run) (hl : s.clc.line = .window (.assign a) closes)
    (hf : f ≠ chainFrame 0 4 (assignPayload a s.clc.censusNumber)) :
    exec (.chainAnswerComplete f) s = .next (finish (assignFailed a run (endExchange s.now s))) := by
  rcases classify_assign a (s.clc.visit.elim 0 (·.slot)) f with hnone | ⟨hecho, hsent⟩
  · rw [exec_invalid hh hl hnone, failExchange_assign a _ hc]
  · rw [exec_answered hh hl hecho]
    have hne : f.payload ≠ assignPayload a s.clc.censusNumber := fun e => hf (hsent.trans (by rw [e]))
    simp only [answerExchange, hc, if_neg hne]

theorem exec_echoed {s : State} {run : CensusRun} {a : Assign} {closes : Nat} (hh : s.pwc.held = false)
    (hc : s.clc.census = some run) (hl : s.clc.line = .window (.assign a) closes) :
    exec (.chainAnswerComplete (chainFrame 0 4 (assignPayload a s.clc.censusNumber))) s =
      .next (finish (assignDone a run (endExchange s.now s))) := by
  rw [exec_answered hh hl (classify_echo a a _ _)]
  simp only [answerExchange, hc, if_true]

theorem rollUnanswered_first {run : CensusRun} (s : State) (h : run.silent = 0) :
    rollUnanswered run s = setClc { s.clc with census := some { run with silent := 1 }, task := some .roll } s := by
  rw [rollUnanswered, h]
  exact if_neg (by omega)

theorem placeNode_eq (run : CensusRun) (node : Placed) :
    placeNode run node =
      if node.identity ∈ run.table.map (·.identity) then
        { node := node, choice := .duplicate, slot := 7, repeated := false }
      else if 6 ≤ run.table.length then { node := node, choice := .beyondSix, slot := 7, repeated := false }
      else { node := node, choice := .slot, slot := run.table.length + 1, repeated := false } := by
  have h : (run.table.any (·.identity = node.identity) = true) ↔ node.identity ∈ run.table.map (·.identity) := by simp
  unfold placeNode
  simp only [h]

theorem foldl_reportWake_clc (rs : List (Nat × Identity)) (s : State) :
    (rs.foldl (fun acc x => reportWake (compositionReport x.1 x.2) acc) s).clc = s.clc := by
  induction rs generalizing s with
  | nil => rfl
  | cons r rs ih =>
    rw [List.foldl_cons, ih, reportWake_eq]

theorem completeCensus_clc (run : CensusRun) (s : State) : (completeCensus run s).clc = (closeCensus run s).clc := by
  rw [completeCensus_parts, handOverWith_eq, foldl_reportWake_clc]
  simp [censusLoads, censusClosed]

/-- Settles O46: a valid answer, and the three ways of a first silence. -/
theorem aRollIsAnsweredOrSilent : Obligations.ARollIsAnsweredOrSilent := by
  intro run closes s hh hc hl
  refine ⟨fun payload hlen hlamps => ⟨_, _, rfl, rfl, ?_⟩, fun hs => ⟨?_, ?_, fun f hf => ?_⟩⟩
  · rw [exec_answered hh hl (classify_rollAnswer hlen hlamps), ← placeNode_eq]
    simp only [answerExchange, hc]
    rfl
  · rw [exec_unanswered hh hl, failExchange_roll _ (by exact hc), rollUnanswered_first _ hs]
    rfl
  · rw [exec_abandoned hh hl, failExchange_roll _ hc, rollUnanswered_first _ hs]
    rfl
  · rw [exec_invalid hh hl (classify_roll_invalid hf), failExchange_roll _ hc, rollUnanswered_first _ hs]
    rfl

/-- Settles O47: the echo, the twelfth node's echo, and a first ASSIGN without one. -/
theorem anAssignIsEchoedOrRepeated : Obligations.AnAssignIsEchoedOrRepeated := by
  intro run a closes s hh hc hl
  refine ⟨fun h12 => ?_, fun h12 => ⟨_, exec_echoed hh hc hl, ?_⟩, fun hr => ⟨?_, ?_, fun f hf => ?_⟩⟩
  · rw [exec_echoed hh hc hl, assignDone, if_neg (by omega)]
    rfl
  · rw [assignDone, if_pos h12, completeCensus_clc]
    exact ⟨rfl, rfl, rfl⟩
  · rw [exec_unanswered hh hl, failExchange_assign _ _ (by exact hc), assignFailed, hr]
    rfl
  · rw [exec_abandoned hh hl, failExchange_assign _ _ hc, assignFailed, hr]
    rfl
  · rw [exec_notEchoed hh hc hl hf, assignFailed, hr]
    rfl

end Sys2Proof.Machine
end


/-! ### The answer to a visit -/

section

/-! PROOFS. O49. -/

namespace Sys2Proof.Machine

/-! ### Wake reports (R192, R193) -/

theorem has_put (w : WakeSet) (c d : WakeCause) : (w.put c true).has d = (w.has d || decide (c = d)) := by
  cases c <;> cases d <;> simp [WakeSet.put, WakeSet.has]

/-- A report in STANDBY sets its flag, and is recorded when the mask enables it and no record is held. -/
theorem reportWake_reported {s : State} (h : s.pwc.power = .standby) (r : WakeRecord) :
    Reported s.params.wakeMask [r] s.pwc (reportWake r s).pwc ∧
      (reportWake r s).pwc.wakeFlags = s.pwc.wakeFlags.put r.cause true := by
  simp only [reportWake, if_pos h]
  refine ⟨⟨fun c => by simp [has_put], ?_⟩, trivial⟩
  cases hm : s.params.wakeMask.has r.cause <;> cases hw : s.pwc.wakeRecord <;> simp [hm]

theorem reportWake_awake {s : State} (h : s.pwc.power ≠ .standby) (r : WakeRecord) : reportWake r s = s :=
  if_neg h

theorem reportWake_only (r : WakeRecord) (s : State) : OnlyChanges [.pwc] s (reportWake r s) := by
  rw [reportWake_eq]
  intro b hb
  cases b <;> simp_all [Same]

theorem onFaults_only (op : Flt → FltStep) (s : State) : OnlyChanges [.flt, .dsr, .hlc, .pwc] s (onFaults op s) := by
  rw [onFaults_eq]
  intro b hb
  cases b <;> simp_all [Same]

theorem handOverWith_pwc (owned : List DisplayEntry → List DisplayEntry) (es : List FltEffect) (s : State) :
    (handOverWith owned es s).pwc = (reportActivations es s).pwc := by
  unfold handOverWith
  simp only
  rw [reevaluate_eq]
  rfl

theorem onFaults_pwc (op : Flt → FltStep) (s : State) :
    (onFaults op s).pwc = (reportActivations (op s.flt).2 (commitFaults (op s.flt).1 s)).pwc :=
  handOverWith_pwc _ _ _

/-- What only removes records reports no activation. -/
theorem reportActivations_removals {es : List FltEffect} (h : ∀ e ∈ es, ∃ r b, e = .removed r b) (s : State) :
    reportActivations es s = s := by
  unfold reportActivations
  induction es with
  | nil => rfl
  | cons e es ih =>
    obtain ⟨r, b, rfl⟩ := h e (by simp)
    exact ih fun e he => h e (by simp [he])

theorem removeWhere_removals (t : FaultRecord → Bool) (b : Bool) (f : Flt) :
    ∀ e ∈ (removeWhere t b f).2, ∃ r b, e = FltEffect.removed r b := by
  intro e he
  unfold removeWhere at he
  simp only at he
  split at he
  · exact absurd he (by simp)
  obtain ⟨r, -, rfl⟩ := List.mem_map.1 he
  exact ⟨r, b, rfl⟩

theorem onFaults_removeNodeLost_pwc (n : Nat) (s : State) : (onFaults (removeNodeLost n) s).pwc = s.pwc := by
  rw [onFaults_pwc, removeNodeLost, reportActivations_removals (removeWhere_removals _ _ _)]
  exact commitFaults_pwc _ _

theorem onFaults_removeNodeLost_contents (n : Nat) (s : State) :
    recordContents (onFaults (removeNodeLost n) s).flt =
      (recordContents s.flt).map fun o => o.filter fun r => decide (r.key ≠ .nodeLost n) := by
  rw [onFaults_contents, removeNodeLost, removeWhere_contents (by intro r; rfl)]
  simp

/-! ### The end of a visit (R35, R36, R41) -/

theorem closeVisit_only (s : State) : OnlyChanges [.clc] s (closeVisit s) := by
  rw [closeVisit_eq]
  intro b hb
  cases b <;> simp_all [Same]

/-- The line at the end of a visit: idle, and idle from this moment at the earliest. -/
theorem closeVisit_clc (s : State) :
    (closeVisit s).clc = { s.clc with
      visit := none, line := .idle, idleFrom := max s.now (cutIdleFrom s.now s.clc)
      cycle := (closeVisit s).clc.cycle, cycleCounter := (closeVisit s).clc.cycleCounter } := by
  unfold closeVisit
  simp only
  split
  · split <;> rfl
  · rfl

theorem endsWithVisit_iff (s : State) (y : PollCycle) : endsWithVisit s y = true ↔
    y.closing = true ∨ (s.pwc.power = .standby ∧ ∀ j z, y.pos ≤ j → s.clc.table[j]? = some z →
      z.state = .lost ∧ s.clc.cycleCounter ≠ 0) := by
  rw [← nextPlace_isNone_iff]
  simp [endsWithVisit]

theorem closeVisit_cycle {s : State} {y : PollCycle} (h : s.clc.cycle = some y) :
    CycleAtVisitEnd s y s.now (closeVisit s).clc := by
  intro done hdone
  rw [← endsWithVisit_iff] at hdone
  refine ⟨fun hd => ?_, fun hd => ?_⟩
  · rw [closeVisit_clc_of_ends h (hdone.1 hd)]
    exact ⟨rfl, rfl⟩
  · rw [closeVisit_clc_of_goes_on h (Bool.eq_false_iff.2 fun e => hd (hdone.2 e))]
    exact ⟨rfl, rfl⟩

theorem cycleAtVisitEnd_congr {s : State} {y : PollCycle} {t : Nat} {k k' : Clc} (h : CycleAtVisitEnd s y t k)
    (hcycle : k'.cycle = k.cycle) (hcounter : k'.cycleCounter = k.cycleCounter) : CycleAtVisitEnd s y t k' := by
  intro done hdone
  rw [hcycle, hcounter]
  exact h done hdone

theorem slotOf_of_table {s t : State} (n : Nat) (h : t.clc.table = s.clc.table) : slotOf t n = slotOf s n := by
  simp only [slotOf, h]

theorem setSlot_only (n : Nat) (x : Slot) (s : State) : OnlyChanges [.clc] s (setSlot n x s) := by
  intro b hb
  cases b <;> simp_all [Same, setSlot]

/-! ### The answers to a POLL (R36, R37) -/

theorem classify_report {slot : Nat} {payload : List Byte} (hs : slot < 256) (hlen : payload.length = 31) :
    classify .poll slot (chainFrame slot 6 payload) = some (.report (reportOf payload)) := by
  unfold classify
  rw [if_neg (chainFrame_sound (by omega) (by rw [hlen]; rfl))]
  refine if_pos ?_
  simp [chainFrame, Nat.mod_eq_of_lt hs]

theorem classify_busy {slot : Nat} (hs : slot < 256) :
    classify .poll slot (chainFrame slot 7 []) = some .busy := by
  unfold classify
  rw [if_neg (chainFrame_sound (by simp) rfl)]
  refine if_pos ?_
  simp [chainFrame, Nat.mod_eq_of_lt hs]

theorem exec_reported {s : State} {v : Visit} {closes : Nat} {payload : List Byte} (hh : s.pwc.held = false)
    (hv : s.clc.visit = some v) (hs : v.slot < 256) (hl : s.clc.line = .window .poll closes)
    (hlen : payload.length = 31) :
    exec (.chainAnswerComplete (chainFrame v.slot 6 payload)) s =
      .next (finish (visitReported v.slot (reportOf payload) (closeVisit s))) := by
  rw [exec_answered hh hl (by rw [hv]; exact classify_report hs hlen)]
  simp only [answerExchange, hv]

theorem exec_busy {s : State} {v : Visit} {closes : Nat} (hh : s.pwc.held = false) (hv : s.clc.visit = some v)
    (hs : v.slot < 256) (hl : s.clc.line = .window .poll closes) :
    exec (.chainAnswerComplete (chainFrame v.slot 7 [])) s = .next (finish (visitBusy v (endExchange s.now s))) := by
  rw [exec_answered hh hl (by rw [hv]; exact classify_busy hs)]
  simp only [answerExchange, hv]

theorem closeVisit_idleFrom {s : State} {x : Exchange} {closes : Nat} (hl : s.clc.line = .window x closes) :
    max s.now (cutIdleFrom s.now s.clc) = max s.clc.idleFrom s.now := by
  simp only [cutIdleFrom, hl]
  omega

theorem visitReported_good {s : State} {n : Nat} {x : Slot} {r : Report} (hx : slotOf s n = some x)
    (hr : r.identity = x.identity) : visitReported n r s = visitGood n x r s := by
  simp only [visitReported, hx, if_pos hr]

theorem visitReported_wrong {s : State} {n : Nat} {x : Slot} {r : Report} (hx : slotOf s n = some x)
    (hr : r.identity ≠ x.identity) : visitReported n r s = visitWrong n r s := by
  simp only [visitReported, hx, if_neg hr]

/-- A report of another unit: its cause in STANDBY, and a census in ACTIVE. -/
theorem visitWrong_cases (n : Nat) (r : Report) (z : State) :
    (z.pwc.power = .active → z.clc.census = none → visitWrong n r z = startCensus z) ∧
      (z.pwc.power ≠ .active ∨ z.clc.census ≠ none →
        visitWrong n r z = reportWake (compositionReport n r.identity) z) := by
  have heq := reportWake_eq (compositionReport n r.identity) z
  refine ⟨fun hp hc => ?_, fun h => ?_⟩
  · rw [visitWrong, reportWake_awake (by rw [hp]; simp), triggerCensus_starts hp hc]
  · refine triggerCensus_idle ?_
    rw [heq]
    refine h.imp_left fun hp => ?_
    unfold reportWake
    split <;> exact hp

/-- Settles O49: BUSY, the slot's own unit, present or LOST, and another unit. -/
theorem aVisitIsAnswered : Obligations.AVisitIsAnswered := by
  intro v x y closes s hh hv hslot hx hy hl
  obtain ⟨z, hz⟩ : ∃ z, z = closeVisit s := ⟨_, rfl⟩
  have honly : OnlyChanges [.clc] s z := hz ▸ closeVisit_only s
  have hnow : z.now = s.now := honly .now (by simp)
  have hparams : z.params = s.params := honly .params (by simp)
  have hpwc : z.pwc = s.pwc := honly .pwc (by simp)
  have hflt : z.flt = s.flt := honly .flt (by simp)
  have hclc := closeVisit_clc s
  rw [closeVisit_idleFrom hl, ← hz] at hclc
  have htable : z.clc.table = s.clc.table := by rw [hclc]
  have hcycle : CycleAtVisitEnd s y s.now z.clc := hz ▸ closeVisit_cycle hy
  have hxz : slotOf z v.slot = some x := (slotOf_of_table _ htable).trans hx
  refine ⟨fun hrep => ?_, fun payload hlen => ⟨fun hid => ?_, fun hid => ?_⟩⟩
  · rw [exec_busy hh hv hslot hl, visitBusy, if_pos hrep]
    rfl
  · obtain ⟨w, hw⟩ : ∃ w, w = setSlot v.slot { x with
        state := .present, misses := 0, latest := some { report := reportOf payload, arrival := s.now } } z := ⟨_, rfl⟩
    have hwclc : w.clc = { z.clc with table := s.clc.table.set (v.slot - 1) { x with
        state := .present, misses := 0, latest := some { report := reportOf payload, arrival := s.now } } } := by
      rw [hw, setSlot, htable]
      rfl
    have hwonly : OnlyChanges [.clc] z w := hw ▸ setSlot_only _ _ _
    have hwork := exec_reported hh hv hslot hl hlen
    rw [← hz, visitReported_good hxz hid, visitGood, hnow, ← hw] at hwork
    by_cases hlost : x.state = .lost
    · rw [if_pos hlost] at hwork
      obtain ⟨g, hg⟩ : ∃ g, g = onFaults (removeNodeLost v.slot) w := ⟨_, rfl⟩
      have hgonly : OnlyChanges [.flt, .dsr, .hlc, .pwc] w g := hg ▸ onFaults_only _ _
      have hronly := reportWake_only (compositionReport v.slot x.identity) g
      have huclc : (reportWake (compositionReport v.slot x.identity) g).clc = w.clc :=
        (show _ = g.clc from hronly .clc (by simp)).trans (hgonly .clc (by simp))
      have hgpwc : g.pwc = s.pwc := by
        rw [hg, onFaults_removeNodeLost_pwc]
        exact (show w.pwc = z.pwc from hwonly .pwc (by simp)).trans hpwc
      have hgparams : g.params = s.params :=
        (show g.params = w.params from hgonly .params (by simp)).trans
          ((show w.params = z.params from hwonly .params (by simp)).trans hparams)
      have hgflt : recordContents g.flt =
          (recordContents s.flt).map fun o => o.filter fun r => decide (r.key ≠ .nodeLost v.slot) := by
        rw [hg, onFaults_removeNodeLost_contents,
          (show w.flt = z.flt from hwonly .flt (by simp)), hflt]
      rw [← hg] at hwork
      refine ⟨_, hwork, ?_, ?_, absurd hlost, fun _ => ⟨?_, fun hp => ?_, ?_⟩⟩
      · rw [huclc, hwclc, hclc]
      · exact cycleAtVisitEnd_congr hcycle (by rw [huclc, hwclc]) (by rw [huclc, hwclc])
      · rw [show (reportWake (compositionReport v.slot x.identity) g).flt = g.flt from hronly .flt (by simp)]
        exact hgflt
      · obtain ⟨hrep, hflags⟩ := reportWake_reported (s := g) (by rw [hgpwc]; exact hp)
          (compositionReport v.slot x.identity)
        rw [hgpwc, hgparams] at hrep
        exact ⟨by rw [hflags]; rfl, hrep⟩
      · exact (((honly.trans hwonly).trans hgonly).trans hronly).mono (by simp)
    · rw [if_neg hlost] at hwork
      refine ⟨_, hwork, ?_, ?_, fun _ => (honly.trans hwonly).mono (by simp), fun h => absurd h hlost⟩
      · rw [hwclc, hclc]
      · exact cycleAtVisitEnd_congr hcycle (by rw [hwclc]) (by rw [hwclc])
  · have hwork := exec_reported hh hv hslot hl hlen
    rw [← hz, visitReported_wrong hxz hid] at hwork
    obtain ⟨hstarts, hreports⟩ := visitWrong_cases v.slot (reportOf payload) z
    have hcensus : z.clc.census = s.clc.census := by rw [hclc]
    by_cases hgo : s.pwc.power = .active ∧ s.clc.census = none
    · obtain ⟨hp, hc⟩ := hgo
      rw [hstarts (by rw [hpwc]; exact hp) (by rw [hcensus]; exact hc)] at hwork
      obtain ⟨huclc, husvc, huonly⟩ := startCensus_leaves z
      refine ⟨_, hwork, ?_, ?_, ?_, fun _ _ => ⟨?_, ?_, ?_⟩, fun h => ?_, fun h => ?_, ?_⟩
      · rw [huclc]
        exact htable
      · rw [huclc]
        rfl
      · exact (show (startCensus z).flt = z.flt from huonly .flt (by simp)).trans hflt
      · rw [huclc]
        rfl
      · rw [huclc]
        rfl
      · rw [husvc, show z.svc = s.svc from honly .svc (by simp)]
      · simp [hp, hc] at h
      · simp [hp] at h
      · exact (honly.trans huonly).mono (by simp)
    · have hno : s.pwc.power ≠ .active ∨ s.clc.census ≠ none := not_and_or.1 hgo
      rw [hreports (by rw [hpwc, hcensus]; exact hno)] at hwork
      have huonly := reportWake_only (compositionReport v.slot (reportOf payload).identity) z
      have huclc : (reportWake (compositionReport v.slot (reportOf payload).identity) z).clc = z.clc :=
        huonly .clc (by simp)
      refine ⟨_, hwork, ?_, ?_, ?_, fun hp hc => absurd ⟨hp, hc⟩ hgo, fun _ => ⟨?_, ?_, ?_⟩, fun hp => ?_, ?_⟩
      · rw [huclc]
        exact htable
      · rw [huclc, hclc]
      · exact (show _ = z.flt from huonly .flt (by simp)).trans hflt
      · rw [huclc]
        exact hcensus
      · exact (show _ = z.svc from huonly .svc (by simp)).trans (honly .svc (by simp))
      · exact cycleAtVisitEnd_congr hcycle (by rw [huclc]) (by rw [huclc])
      · obtain ⟨hrep, hflags⟩ := reportWake_reported (s := z) (by rw [hpwc]; exact hp)
          (compositionReport v.slot (reportOf payload).identity)
        rw [hpwc, hparams] at hrep
        rw [hpwc] at hflags
        exact ⟨hflags, hrep⟩
      · exact (honly.trans huonly).mono (by simp)

end Sys2Proof.Machine
end


/-! ### A visit that ends in a miss -/

section

/-! PROOFS. O50. -/

namespace Sys2Proof.Machine

/-! ### The ends of a visit in a miss (R36) -/

theorem classify_poll_invalid {slot : Nat} {f : ChainFrame}
    (h : f.crc ≠ crc8 (f.addr :: f.ty :: f.len :: f.payload) ∨ f.addr.toNat ≠ slot ∨ (f.ty ≠ 6 ∧ f.ty ≠ 7) ∨
      (f.ty = 6 ∧ f.len ≠ 31) ∨ (f.ty = 7 ∧ f.len ≠ 0)) : classify .poll slot f = none := by
  by_contra hc
  obtain ⟨a, ha⟩ := Option.ne_none_iff_exists'.1 hc
  obtain ⟨hcrc, -, hlen⟩ := classify_sound ha
  have hty : (f.ty.toNat = 6 ∨ f.ty.toNat = 7) ∧ f.addr.toNat = slot := by
    unfold classify at ha
    split at ha
    · exact absurd ha (by simp)
    · split at ha
      case h_3 _ _ h6 =>
        split at ha
        · rename_i hok
          exact ⟨.inl h6, hok⟩
        · exact absurd ha (by simp)
      case h_4 _ _ h7 =>
        split at ha
        · rename_i hok
          exact ⟨.inr h7, hok⟩
        · exact absurd ha (by simp)
      all_goals simp_all
  obtain ⟨hty, haddr⟩ := hty
  have hl6 : f.ty.toNat = 6 → f.len = 31 := fun h6 => BitVec.eq_of_toNat_eq (by
    rw [h6] at hlen
    exact (Option.some.inj hlen).symm)
  have hl7 : f.ty.toNat = 7 → f.len = 0 := fun h7 => BitVec.eq_of_toNat_eq (by
    rw [h7] at hlen
    exact (Option.some.inj hlen).symm)
  rcases h with h | h | ⟨h6, h7⟩ | ⟨h6, h⟩ | ⟨h7, h⟩
  · exact h hcrc
  · exact h haddr
  · exact hty.elim (fun e => h6 (BitVec.eq_of_toNat_eq e)) fun e => h7 (BitVec.eq_of_toNat_eq e)
  · exact h (hl6 (by rw [h6]; rfl))
  · exact h (hl7 (by rw [h7]; rfl))

/-- The moment at which a failed visit ends. -/
def missTime (i : Instr) (closes limit now : Nat) : Nat :=
  if i = .answerWindowClose then max now closes else if i = .visitTimeLimit then max now limit else now

theorem exec_missed {i : Instr} {v : Visit} {closes : Nat} {s : State} (hh : s.pwc.held = false)
    (hv : s.clc.visit = some v)
    (h : (i = .visitTimeLimit ∧ (s.clc.line = .idle ∨ ∃ ends, s.clc.line = .sending .poll ends)) ∨
      (s.clc.line = .window .poll closes ∧
        (i ∈ [.answerWindowClose, .chainAnswerAbandon, .visitTimeLimit] ∨
          (2 ≤ v.repolls ∧ v.slot < 256 ∧ i = .chainAnswerComplete (chainFrame v.slot 7 [])) ∨
          ∃ f, i = .chainAnswerComplete f ∧
            (f.crc ≠ crc8 (f.addr :: f.ty :: f.len :: f.payload) ∨ f.addr.toNat ≠ v.slot ∨ (f.ty ≠ 6 ∧ f.ty ≠ 7) ∨
              (f.ty = 6 ∧ f.len ≠ 31) ∨ (f.ty = 7 ∧ f.len ≠ 0))))) :
    ∃ line idle, exec i s = .next (finish (visitMissed v.slot (closeVisit { s with
      now := missTime i closes v.limit s.now, clc := { s.clc with line := line, idleFrom := idle } }))) := by
  have hlimit : exec .visitTimeLimit s = .next (finish (visitMissed v.slot (closeVisit (reach v.limit s)))) := by
    refine congrArg Host.Outcome.next ((event_released _ s hh).trans (congrArg finish ?_))
    simp only [hv]
  have hpoll : ∀ t : State, t.clc.visit = some v → ∀ idle, failExchange .poll idle t = visitMissed v.slot (closeVisit t) := by
    intro t ht idle
    simp only [failExchange, ht]
  rcases h with ⟨rfl, -⟩ | ⟨hl, hi | ⟨hrep, hslot, rfl⟩ | ⟨f, rfl, hf⟩⟩
  · exact ⟨s.clc.line, s.clc.idleFrom, hlimit⟩
  · simp only [List.mem_cons, List.not_mem_nil, or_false] at hi
    rcases hi with rfl | rfl | rfl
    · refine ⟨s.clc.line, s.clc.idleFrom, ?_⟩
      rw [exec_unanswered hh hl, hpoll _ (by exact hv)]
      rfl
    · refine ⟨s.clc.line, s.clc.idleFrom, ?_⟩
      rw [exec_abandoned hh hl, hpoll _ hv]
      rfl
    · exact ⟨s.clc.line, s.clc.idleFrom, hlimit⟩
  · refine ⟨.idle, max s.clc.idleFrom s.now, ?_⟩
    rw [exec_busy hh hv hslot hl, visitBusy, if_neg (by omega)]
    rfl
  · refine ⟨s.clc.line, s.clc.idleFrom, ?_⟩
    rw [exec_invalid hh hl (by rw [hv]; exact classify_poll_invalid hf), hpoll _ hv]
    rfl

/-! ### What a miss does to its slot (R34) -/

theorem missedSlot_state (x : Slot) :
    (x.state = .present → (missedSlot x).state = if 3 ≤ min (x.misses + 1) 255 then .stale else .present) ∧
      (x.state = .stale → (missedSlot x).state = if 8 ≤ min (x.misses + 1) 255 then .lost else .stale) ∧
      (x.state = .lost → (missedSlot x).state = .lost) := by
  refine ⟨fun h => ?_, fun h => ?_, fun h => ?_⟩ <;> simp only [missedSlot, h]

/-- A PRESENT slot becomes STALE with this miss. -/
def becomesStale (x : Slot) : Prop := x.state = .present ∧ 3 ≤ min (x.misses + 1) 255

/-- A STALE slot becomes LOST with this miss. -/
def becomesLost (x : Slot) : Prop := x.state = .stale ∧ 8 ≤ min (x.misses + 1) 255

theorem visitMissed_stale {n : Nat} {x : Slot} {s : State} (hx : slotOf s n = some x) (h : becomesStale x) :
    visitMissed n s = slotBecameStale (setSlot n (missedSlot x) s) := by
  obtain ⟨hp, hm⟩ := h
  simp only [visitMissed, hx]
  exact if_pos ⟨hp, by rw [(missedSlot_state x).1 hp, if_pos hm]⟩

theorem visitMissed_lost {n : Nat} {x : Slot} {s : State} (hx : slotOf s n = some x) (h : becomesLost x) :
    visitMissed n s = slotBecameLost n x.identity (setSlot n (missedSlot x) s) := by
  obtain ⟨hp, hm⟩ := h
  simp only [visitMissed, hx]
  rw [if_neg (by simp [hp]), if_pos ⟨hp, by rw [(missedSlot_state x).2.1 hp, if_pos hm]⟩]

theorem visitMissed_counted {n : Nat} {x : Slot} {s : State} (hx : slotOf s n = some x) (hs : ¬becomesStale x)
    (hl : ¬becomesLost x) : visitMissed n s = setSlot n (missedSlot x) s := by
  obtain ⟨hpresent, hstale, -⟩ := missedSlot_state x
  simp only [visitMissed, hx]
  rw [if_neg, if_neg]
  · rintro ⟨h, h'⟩
    rw [hstale h, if_neg (fun hm => hl ⟨h, hm⟩)] at h'
    cases h'
  · rintro ⟨h, h'⟩
    rw [hpresent h, if_neg (fun hm => hs ⟨h, hm⟩)] at h'
    cases h'

/-! ### A slot that became LOST (R34, R114, R193) -/

theorem reportWake_keeps (r : WakeRecord) (s : State) :
    (s.pwc.wakeRecord ≠ none → (reportWake r s).pwc.wakeRecord = s.pwc.wakeRecord) ∧
      ∀ c, s.pwc.wakeFlags.has c = true → (reportWake r s).pwc.wakeFlags.has c = true := by
  unfold reportWake
  split
  · refine ⟨fun h => ?_, fun c h => ?_⟩
    · obtain ⟨w, hw⟩ := Option.ne_none_iff_exists'.1 h
      simp [hw]
    · rw [has_put, h]
      rfl
  · exact ⟨fun _ => rfl, fun _ h => h⟩

theorem reportActivations_keeps (es : List FltEffect) (s : State) :
    (s.pwc.wakeRecord ≠ none → (reportActivations es s).pwc.wakeRecord = s.pwc.wakeRecord) ∧
      ∀ c, s.pwc.wakeFlags.has c = true → (reportActivations es s).pwc.wakeFlags.has c = true := by
  unfold reportActivations
  induction es generalizing s with
  | nil => exact ⟨fun _ => rfl, fun _ h => h⟩
  | cons e es ih =>
    rw [List.foldl_cons]
    cases e with
    | activated r =>
      obtain ⟨hrec, hflags⟩ := reportWake_keeps (faultReport r) s
      obtain ⟨ihrec, ihflags⟩ := ih (reportWake (faultReport r) s)
      exact ⟨fun h => (ihrec (by rw [hrec h]; exact h)).trans (hrec h), fun c h => ihflags c (hflags c h)⟩
    | removed r b => exact ih s

theorem onFaults_keeps (op : Flt → FltStep) (s : State) :
    (s.pwc.wakeRecord ≠ none → (onFaults op s).pwc.wakeRecord = s.pwc.wakeRecord) ∧
      ∀ c, s.pwc.wakeFlags.has c = true → (onFaults op s).pwc.wakeFlags.has c = true := by
  have h := reportActivations_keeps (op s.flt).2 (commitFaults (op s.flt).1 s)
  rw [commitFaults_pwc] at h
  rw [onFaults_pwc]
  exact h

theorem reportWake_flag {s : State} (h : s.pwc.power = .standby) (r : WakeRecord) :
    (reportWake r s).pwc.wakeFlags.has r.cause = true := by
  obtain ⟨-, hflags⟩ := reportWake_reported h r
  rw [hflags, has_put]
  simp

/-- A slot that becomes LOST asks for its record; in STANDBY it is a COMPOSITION cause, in whichever order (log 8). -/
theorem slotBecameLost_does (n : Nat) (identity : Identity) (s : State) :
    recordContents (slotBecameLost n identity s).flt = recordContents (createNodeLost n identity s.flt).1 ∧
      (s.pwc.power = .standby → (slotBecameLost n identity s).pwc.wakeFlags.composition = true) ∧
      (s.pwc.wakeRecord ≠ none → (slotBecameLost n identity s).pwc.wakeRecord = s.pwc.wakeRecord) ∧
      OnlyChanges [.freeCount, .flt, .dsr, .hlc, .pwc] s (slotBecameLost n identity s) := by
  obtain ⟨s1, hs1⟩ : ∃ s1 : State, s1 = { s with freeCount := s.freeCount + 1 } := ⟨_, rfl⟩
  have hs1only : OnlyChanges [.freeCount] s s1 := by
    rw [hs1]
    intro b hb
    cases b <;> simp_all [Same]
  have hpwc : s1.pwc = s.pwc := hs1only .pwc (by simp)
  have hflt : s1.flt = s.flt := hs1only .flt (by simp)
  unfold slotBecameLost
  simp only
  rw [← hs1]
  split
  · rename_i hp
    have hp1 : s1.pwc.power = .standby := by rw [hpwc]; exact hp
    split
    · obtain ⟨t, ht⟩ : ∃ t, t = reportWake (compositionReport n identity) s1 := ⟨_, rfl⟩
      obtain ⟨hrec, -⟩ := reportWake_keeps (compositionReport n identity) s1
      have hflag := reportWake_flag hp1 (compositionReport n identity)
      have htonly := reportWake_only (compositionReport n identity) s1
      rw [← ht] at hrec hflag htonly ⊢
      rw [hpwc] at hrec
      obtain ⟨hrec', hflags'⟩ := onFaults_keeps (createNodeLost n identity) t
      refine ⟨?_, fun _ => hflags' .composition hflag, fun h => ?_, ?_⟩
      · rw [onFaults_contents, show t.flt = s1.flt from htonly .flt (by simp), hflt]
      · exact (hrec' (by rw [hrec h]; exact h)).trans (hrec h)
      · exact ((hs1only.trans htonly).trans (onFaults_only _ _)).mono (by simp)
    · obtain ⟨t, ht⟩ : ∃ t, t = onFaults (createNodeLost n identity) s1 := ⟨_, rfl⟩
      obtain ⟨hrec, -⟩ := onFaults_keeps (createNodeLost n identity) s1
      have htonly := onFaults_only (createNodeLost n identity) s1
      have hcontents := onFaults_contents (createNodeLost n identity) s1
      have hpower : t.pwc.power = .standby := by
        have hpower := (onFaults_createNodeLost_tame n identity s1).power.power
        rw [ht, hpower]
        exact hp1
      rw [← ht] at hrec htonly hcontents ⊢
      rw [hpwc] at hrec
      rw [hflt] at hcontents
      obtain ⟨hrec', -⟩ := reportWake_keeps (compositionReport n identity) t
      have hronly := reportWake_only (compositionReport n identity) t
      refine ⟨?_, fun _ => reportWake_flag hpower (compositionReport n identity), fun h => ?_, ?_⟩
      · rw [show (reportWake (compositionReport n identity) t).flt = t.flt from hronly .flt (by simp)]
        exact hcontents
      · exact (hrec' (by rw [hrec h]; exact h)).trans (hrec h)
      · exact ((hs1only.trans htonly).trans hronly).mono (by simp)
  · rename_i hp
    obtain ⟨hrec, -⟩ := onFaults_keeps (createNodeLost n identity) s
    exact ⟨onFaults_contents _ _, fun h => absurd h hp, hrec, (onFaults_only _ _).mono (by simp)⟩

/-! ### A miss as a whole -/

/-- A miss in ACTIVE starts a census out of the hold-off. -/
def missStarts (x : Slot) (s : State) : Prop := becomesStale x ∧ s.pwc.power = .active ∧ s.clc.holdoff = none

/-- A miss in ACTIVE within the hold-off sets the pending trigger. -/
def missPends (x : Slot) (s : State) : Prop := becomesStale x ∧ s.pwc.power = .active ∧ s.clc.holdoff ≠ none

theorem slotBecameStale_cases {s : State} (hc : s.clc.census = none) :
    (s.pwc.power = .active → s.clc.holdoff = none → slotBecameStale s = startCensus s) ∧
      (s.pwc.power = .active → s.clc.holdoff ≠ none →
        slotBecameStale s = setClc { s.clc with pendingTrigger := true } s) ∧
      (s.pwc.power ≠ .active → slotBecameStale s = s) := by
  refine ⟨fun hp hh => ?_, fun hp hh => ?_, fun hp => if_neg hp⟩
  · rw [slotBecameStale, if_pos hp, if_neg (by simp [hh]), triggerCensus_starts hp hc]
  · rw [slotBecameStale, if_pos hp, if_pos (Option.isSome_iff_ne_none.2 hh)]

/-- What a counted miss leaves besides its slot: the census or the trigger it asks for, the NODE-LOST record, and
nothing where the slot keeps its state. -/
structure MissLeaves (x : Slot) (n : Nat) (w u : State) : Prop where
  started : missStarts x w → u.clc = censusStarted w.now w.clc ∧ u.svc = captureAborted w.svc
  pended : missPends x w → u.clc = { w.clc with pendingTrigger := true }
  kept : ¬missStarts x w → ¬missPends x w → u.clc = w.clc
  service : ¬missStarts x w → u.svc = w.svc
  lost : becomesLost x → recordContents u.flt = recordContents (createNodeLost n x.identity w.flt).1 ∧
    (w.pwc.power = .standby → u.pwc.wakeFlags.composition = true)
  record : w.pwc.wakeRecord ≠ none → u.pwc.wakeRecord = w.pwc.wakeRecord
  rest : OnlyChanges [.freeCount, .clc, .flt, .dsr, .svc, .hlc, .pwc] w u
  still : ¬becomesStale x → ¬becomesLost x → u = w

theorem visitMissed_leaves {n : Nat} {x : Slot} {t : State} (hx : slotOf t n = some x) (hc : t.clc.census = none) :
    MissLeaves x n (setSlot n (missedSlot x) t) (visitMissed n t) := by
  obtain ⟨w, hw⟩ : ∃ w, w = setSlot n (missedSlot x) t := ⟨_, rfl⟩
  have hwc : w.clc.census = none := by rw [hw]; exact hc
  obtain ⟨hstart, hpend, hidle⟩ := slotBecameStale_cases hwc
  by_cases hstale : becomesStale x
  · have hnotlost : ¬becomesLost x := fun h => by
      obtain ⟨hp, -⟩ := hstale
      obtain ⟨hs, -⟩ := h
      rw [hp] at hs
      cases hs
    rw [visitMissed_stale hx hstale, ← hw]
    by_cases hp : w.pwc.power = .active
    · by_cases hh : w.clc.holdoff = none
      · rw [hstart hp hh]
        obtain ⟨hclc, hsvc, honly⟩ := startCensus_leaves w
        have hyes : missStarts x w := ⟨hstale, hp, hh⟩
        exact {
          started := fun _ => ⟨hclc, hsvc⟩
          pended := fun h => absurd hh h.2.2
          kept := fun h => absurd hyes h
          service := fun h => absurd hyes h
          lost := fun h => absurd h hnotlost
          record := fun _ => by rw [show (startCensus w).pwc = w.pwc from honly .pwc (by simp)]
          rest := honly.mono (by simp)
          still := fun h => absurd hstale h }
      · rw [hpend hp hh]
        exact {
          started := fun h => absurd h.2.2 hh
          pended := fun _ => rfl
          kept := fun _ h => absurd ⟨hstale, hp, hh⟩ h
          service := fun _ => rfl
          lost := fun h => absurd h hnotlost
          record := fun _ => rfl
          rest := by
            intro b hb
            cases b <;> simp_all [Same]
          still := fun h => absurd hstale h }
    · rw [hidle hp]
      exact {
        started := fun h => absurd h.2.1 hp
        pended := fun h => absurd h.2.1 hp
        kept := fun _ _ => rfl
        service := fun _ => rfl
        lost := fun h => absurd h hnotlost
        record := fun _ => rfl
        rest := fun b _ => by cases b <;> rfl
        still := fun _ _ => rfl }
  · by_cases hlost : becomesLost x
    · rw [visitMissed_lost hx hlost, ← hw]
      obtain ⟨hcontents, hflag, hrecord, honly⟩ := slotBecameLost_does n x.identity w
      exact {
        started := fun h => absurd h.1 hstale
        pended := fun h => absurd h.1 hstale
        kept := fun _ _ => honly .clc (by simp)
        service := fun _ => honly .svc (by simp)
        lost := fun _ => ⟨hcontents, hflag⟩
        record := hrecord
        rest := honly.mono (by simp)
        still := fun _ h => absurd hlost h }
    · rw [visitMissed_counted hx hstale hlost, ← hw]
      exact {
        started := fun h => absurd h.1 hstale
        pended := fun h => absurd h.1 hstale
        kept := fun _ _ => rfl
        service := fun _ => rfl
        lost := fun h => absurd h hlost
        record := fun _ => rfl
        rest := fun b _ => by cases b <;> rfl
        still := fun _ _ => rfl }

theorem movedClc_only (t : Nat) (k : Clc) (s : State) : OnlyChanges [.now, .clc] s { s with now := t, clc := k } := by
  intro b hb
  cases b <;> simp_all [Same]

/-- Settles O50: every way a visit fails, and the miss it counts. -/
theorem aFailedVisitIsAMiss : Obligations.AFailedVisitIsAMiss := by
  intro i v x closes s hh hv hx hc hi
  obtain ⟨line, idle, hwork⟩ := exec_missed hh hv hi
  obtain ⟨z, hz⟩ : ∃ z : State, z = { s with
    now := missTime i closes v.limit s.now, clc := { s.clc with line := line, idleFrom := idle } } := ⟨_, rfl⟩
  rw [← hz] at hwork
  have hclosed := closeVisit_clc z
  obtain ⟨w, hw⟩ : ∃ w, w = setSlot v.slot (missedSlot x) (closeVisit z) := ⟨_, rfl⟩
  have hwclc : w.clc = { (closeVisit z).clc with table := s.clc.table.set (v.slot - 1) (missedSlot x) } := by
    rw [hw, setSlot, hclosed, hz]
    rfl
  have hwonly : OnlyChanges [.now, .clc] s w := by
    have hzonly : OnlyChanges [.now, .clc] s z := by
      rw [hz]
      exact movedClc_only _ _ s
    rw [hw]
    exact ((hzonly.trans (closeVisit_only z)).trans (setSlot_only _ _ _)).mono (by simp)
  have hwnow : w.now = missTime i closes v.limit s.now := by
    rw [hw, show (setSlot v.slot (missedSlot x) (closeVisit z)).now = (closeVisit z).now from rfl,
      show (closeVisit z).now = z.now from closeVisit_only z .now (by simp), hz]
  have hwcensus : w.clc.census = none := by rw [hwclc, hclosed, hz]; exact hc
  have hwholdoff : w.clc.holdoff = s.clc.holdoff := by rw [hwclc, hclosed, hz]
  have hwpwc : w.pwc = s.pwc := hwonly .pwc (by simp)
  have hwsvc : w.svc = s.svc := hwonly .svc (by simp)
  have hleaves : MissLeaves x v.slot w (visitMissed v.slot (closeVisit z)) := by
    rw [hw]
    refine visitMissed_leaves ?_ ?_
    · exact (slotOf_of_table _ (by rw [hclosed, hz])).trans hx
    · rw [hclosed, hz]
      exact hc
  obtain ⟨u, hu⟩ : ∃ u, u = visitMissed v.slot (closeVisit z) := ⟨_, rfl⟩
  rw [← hu] at hleaves hwork
  have hunow : u.now = missTime i closes v.limit s.now := (show u.now = w.now from hleaves.rest .now (by simp)).trans hwnow
  have hstarts : missStarts x w ↔
      x.state = .present ∧ 3 ≤ min (x.misses + 1) 255 ∧ s.pwc.power = .active ∧ s.clc.holdoff = none := by
    rw [missStarts, hwpwc, hwholdoff, becomesStale, and_assoc]
  have huclc : ¬missStarts x w → u.clc = { w.clc with pendingTrigger := u.clc.pendingTrigger } := by
    intro hs
    by_cases hp : missPends x w
    · rw [hleaves.pended hp]
    · rw [hleaves.kept hs hp]
  have huline : u.clc.visit = none ∧ u.clc.line = .idle ∧ u.clc.table = w.clc.table := by
    by_cases hs : missStarts x w
    · rw [(hleaves.started hs).1]
      exact ⟨rfl, rfl, rfl⟩
    · rw [huclc hs, hwclc, hclosed]
      exact ⟨rfl, rfl, rfl⟩
  obtain ⟨huvisit, huline, hutable⟩ := huline
  obtain ⟨hpresent, hstale, hlost⟩ := missedSlot_state x
  refine ⟨u, _, hwork, rfl, hunow, huvisit, huline, ?_, ?_, ?_, ?_, fun hp hm ha => ⟨fun hh => ?_, fun hh => ?_⟩,
    fun y hy hno => ?_, fun hp hm ha => ⟨?_, ?_⟩, ?_, fun hs hm => ?_, ?_, ?_⟩
  · exact (show u.ldt = w.ldt from hleaves.rest .ldt (by simp)).trans (hwonly .ldt (by simp))
  · exact (show u.params = w.params from hleaves.rest .params (by simp)).trans (hwonly .params (by simp))
  · exact (show u.sfe = w.sfe from hleaves.rest .sfe (by simp)).trans (hwonly .sfe (by simp))
  · refine ⟨(missedSlot x).state, ?_, hpresent, hstale, hlost⟩
    rw [hutable, hwclc]
    rfl
  · obtain ⟨hclc, -⟩ := hleaves.started (hstarts.2 ⟨hp, hm, ha, hh⟩)
    rw [hclc]
    exact ⟨rfl, rfl⟩
  · rw [hleaves.pended ⟨⟨hp, hm⟩, by rw [hwpwc]; exact ha, by rw [hwholdoff]; exact hh⟩]
    exact ⟨hwcensus, rfl⟩
  · have hcycle : CycleAtVisitEnd s y z.now (closeVisit z).clc := by
      have h := closeVisit_cycle (s := z) (y := y) (by rw [hz]; exact hy)
      rw [hz] at h ⊢
      exact h
    have hznow : u.now = z.now := by rw [hunow, hz]
    rw [hznow]
    refine cycleAtVisitEnd_congr hcycle ?_ ?_
    · rw [huclc fun h => hno (hstarts.1 h), hwclc]
    · rw [huclc fun h => hno (hstarts.1 h), hwclc]
  · have hs : ¬missStarts x w := fun h => ha (hstarts.1 h).2.2.1
    rw [huclc hs]
    exact hwcensus
  · have hs : ¬missStarts x w := fun h => ha (hstarts.1 h).2.2.1
    have hp' : ¬missPends x w := fun h => ha (by rw [← hwpwc]; exact h.2.1)
    rw [hleaves.kept hs hp', hwclc, hclosed, hz]
  · by_cases hs : missStarts x w
    · rw [if_pos (hstarts.1 hs), (hleaves.started hs).2, hwsvc]
    · rw [if_neg fun h => hs (hstarts.2 h), hleaves.service hs, hwsvc]
  · obtain ⟨hcontents, hflag⟩ := hleaves.lost ⟨hs, hm⟩
    rw [show w.flt = s.flt from hwonly .flt (by simp)] at hcontents
    rw [hwpwc] at hflag
    exact ⟨hcontents, hflag⟩
  · have hrecord := hleaves.record
    rw [hwpwc] at hrecord
    exact hrecord
  · intro hkeeps
    have hs : ¬becomesStale x := fun ⟨hp, hm⟩ => by
      rcases hkeeps with ⟨-, h⟩ | ⟨h, -⟩ | h
      · omega
      · simp [hp] at h
      · simp [hp] at h
    have hl : ¬becomesLost x := fun ⟨hp, hm⟩ => by
      rcases hkeeps with ⟨h, -⟩ | ⟨-, h⟩ | h
      · simp [hp] at h
      · omega
      · simp [hp] at h
    rw [hleaves.still hs hl]
    exact hwonly

end Sys2Proof.Machine
end


/-! ### A census completed: the Load Table and the Fault Table follow -/

section

/-! PROOFS. What O48 says of the two tables. -/

namespace Sys2Proof.Machine

/-! ### The lookup never evicts what is in the composition or COMMISSIONED (R47 to R49) -/

theorem entryAt_mapEntries (f : Entry → Option Entry) (t : Ldt) (i : Nat) :
    entryAt (mapEntries f t) i = (entryAt t i).bind f := by
  simp only [entryAt, mapEntries, List.getD_eq_getElem?_getD, List.getElem?_map]
  cases t.entries[i]? <;> rfl

theorem entryAt_setEntry_other {i j : Nat} (e : Option Entry) (t : Ldt) (h : i ≠ j) :
    entryAt (setEntry i e t) j = entryAt t j := by
  simp [entryAt, setEntry, List.getD_eq_getElem?_getD, h]

/-- A victim is an entry that may be evicted. -/
theorem victim_evictable {t : Ldt} {k : EntryKey} {i : Nat} (h : victim t k = some i) :
    ∃ e, entryAt t i = some e ∧ evictable e = true := by
  have key : ∀ (is : List Nat) (best : Option Nat), (∀ b, best = some b → ∃ e, entryAt t b = some e ∧ evictable e = true) →
      ∀ b, is.foldl (betterVictim t) best = some b → ∃ e, entryAt t b = some e ∧ evictable e = true := by
    intro is
    induction is with
    | nil => exact fun best hb => hb
    | cons j is ih =>
      intro best hb
      refine ih _ fun b hbest => ?_
      unfold betterVictim at hbest
      split at hbest
      · exact hb b hbest
      · rename_i e he
        split at hbest
        · rename_i hev
          split at hbest
          · cases hbest
            exact ⟨e, he, hev⟩
          · rename_i b'
            split at hbest <;> cases hbest
            · exact ⟨e, he, hev⟩
            · exact hb _ rfl
        · exact hb b hbest
  exact key _ _ (by simp) i h

theorem placeFor_free {t : Ldt} {k : EntryKey} {i : Nat} (h : placeFor t k = some i) :
    entryAt t i = none ∨ ∃ e, entryAt t i = some e ∧ evictable e = true := by
  unfold placeFor at h
  split at h
  · rename_i j hj
    cases h
    exact .inl (by simpa using List.find?_some hj)
  · exact .inr (victim_evictable h)

theorem ensureEntry_keeps {t : Ldt} {i : Nat} {e : Entry} (k : EntryKey) (h : entryAt t i = some e)
    (he : evictable e = false) : entryAt (ensureEntry t k) i = some e := by
  unfold ensureEntry createEntry
  split
  · exact h
  · split
    · rename_i j hj
      have hne : j ≠ i := by
        rintro rfl
        rcases placeFor_free hj with hn | ⟨x, hx, hev⟩
        · rw [h] at hn
          cases hn
        · rw [h] at hx
          cases hx
          rw [he] at hev
          cases hev
      rw [entryAt_setEntry_other _ _ hne]
      exact h
    · exact h

theorem lookup_keeps {ids : List Identity} {t : Ldt} {i : Nat} {e : Entry} (h : entryAt t i = some e)
    (he : evictable (markEntry (compositionKeys ids) e) = false) :
    entryAt (lookup ids t) i = some (markEntry (compositionKeys ids) e) := by
  have key : ∀ (ks : List EntryKey) (t : Ldt), entryAt t i = some (markEntry (compositionKeys ids) e) →
      entryAt (ks.foldl ensureEntry t) i = some (markEntry (compositionKeys ids) e) := by
    intro ks
    induction ks with
    | nil => exact fun t h => h
    | cons k ks ih => exact fun t h => ih _ (ensureEntry_keeps k h he)
  refine key (compositionKeys ids) _ ?_
  rw [entryAt_mapEntries, h]
  rfl

/-! ### What the census leaves of each record (R116) -/

theorem censusResult_newPlace (run : CensusRun) (coupling : Bool) (old : List Slot) (n : Nat) :
    (censusResult run coupling old).newSlot n =
      newPlace (identitiesOf old) (identitiesOf (newTable run coupling old)) n := by
  unfold CensusResult.newSlot newPlace
  split
  · rfl
  · simp only [censusResult, identitiesOf, List.getD_eq_getElem?_getD, List.getElem?_map]
    cases old[n - 1]? with
    | none => rfl
    | some x => simp [List.findIdx?_map, Function.comp_def]

/-- The steps of R116 on one record, in their order. -/
def settledRecord (res : CensusResult) (r : FaultRecord) : Option FaultRecord :=
  ((without (unitDropped res) r).map (rekey res)).bind fun q =>
    (without (foundAgain res) q).bind fun q => if res.signatureChanged then without isRemainderRecord q else some q

theorem settledRecord_eq {res : CensusResult} {old new : List Identity} (r : FaultRecord)
    (hplace : ∀ n, res.newSlot n = newPlace old new n)
    (hsig : res.signatureChanged = decide (signatureOf old ≠ signatureOf new)) :
    settledRecord res r = censusRecord old new res.enumerated r := by
  obtain ⟨key, identity, kind, state, suspect, heal, sequence, acked, entryId, lastExpected, lastDeficit⟩ := r
  cases key with
  | lamp s c =>
    cases s with
    | slot n =>
      cases hn : newPlace old new n with
      | none => simp [settledRecord, censusRecord, without, unitDropped, keySlot, hplace, hn]
      | some m =>
        simp [settledRecord, censusRecord, without, unitDropped, keySlot, hplace, hn, rekey, withSlot, foundAgain,
          isRemainderRecord]
    | remainder =>
      by_cases hs : signatureOf old = signatureOf new <;>
        simp [settledRecord, censusRecord, without, unitDropped, keySlot, rekey, foundAgain, isRemainderRecord, hsig, hs]
  | nodeLost n =>
    cases hn : newPlace old new n with
    | none => simp [settledRecord, censusRecord, without, unitDropped, keySlot, hplace, hn]
    | some m =>
      by_cases hm : m ≤ res.enumerated <;>
        simp [settledRecord, censusRecord, without, unitDropped, keySlot, hplace, hn, rekey, withSlot, foundAgain,
          isRemainderRecord, hm]
  | disagree c =>
    simp [settledRecord, censusRecord, without, unitDropped, keySlot, rekey, foundAgain, isRemainderRecord]
  | cadence c =>
    simp [settledRecord, censusRecord, without, unitDropped, keySlot, rekey, foundAgain, isRemainderRecord]

/-- The Fault Table once the four steps are done, before the new NODE-LOST records. -/
def settledFaults (res : CensusResult) (f : Flt) : FltStep :=
  let s1 := removeWhere (unitDropped res) false f
  let s2 : FltStep := ({ s1.1 with records := s1.1.records.map fun o => o.map (rekey res) }, s1.2)
  let s3 := s2.andThen (removeWhere (foundAgain res) true)
  if res.signatureChanged then s3.andThen (removeWhere isRemainderRecord false) else s3

theorem applyCensus_eq (res : CensusResult) (f : Flt) :
    applyCensus res f =
      res.newlyLost.foldl (fun acc x => acc.andThen (createNodeLost x.1 x.2)) (settledFaults res f) := rfl

theorem settledFaults_records (res : CensusResult) (f : Flt) :
    (settledFaults res f).1.records = f.records.map fun o => o.bind (settledRecord res) := by
  have hone : ∀ o : Option FaultRecord, o.bind (settledRecord res) =
      (((o.bind (without (unitDropped res))).map (rekey res)).bind (without (foundAgain res))).bind fun q =>
        if res.signatureChanged then without isRemainderRecord q else some q := by
    intro o
    cases o with
    | none => rfl
    | some r =>
      simp only [Option.bind_some, settledRecord]
      cases (without (unitDropped res) r).map (rekey res) <;> rfl
  simp only [hone]
  unfold settledFaults
  simp only
  split
  · rename_i h
    simp [FltStep.andThen, removeWhere_records, Function.comp_def]
  · rename_i h
    simp [FltStep.andThen, removeWhere_records, Function.comp_def]

theorem recordAt_settledFaults (res : CensusResult) (f : Flt) (i : Nat) :
    recordAt (settledFaults res f).1 i = (recordAt f i).bind (settledRecord res) := by
  simp only [recordAt, settledFaults_records, List.getD_eq_getElem?_getD, List.getElem?_map]
  cases f.records[i]? <;> rfl

/-! ### The NODE-LOST records asked for (R114, R116) -/

/-- The record of a slot newly LOST. -/
def IsNodeLost (n : Nat) (identity : Identity) (r : FaultRecord) : Prop :=
  r.key = .nodeLost n ∧ r.identity = some identity ∧ r.kind = .nodeLost ∧ r.state = .active ∧ r.acked = false

/-- What a request for a NODE-LOST record does: every record stays, one more may stand in a position that was empty,
and the slot's record is there unless the table is full. -/
theorem createNodeLost_places (n : Nat) (identity : Identity) (f : Flt) :
    (∀ i r, recordAt f i = some r → recordAt (createNodeLost n identity f).1 i = some r) ∧
      (∀ i r, recordAt f i = none → recordAt (createNodeLost n identity f).1 i = some r → IsNodeLost n identity r) ∧
      ((∃ i r, recordAt (createNodeLost n identity f).1 i = some r ∧ r.key = .nodeLost n) ∨
        (createNodeLost n identity f).1.saturated = true) ∧
      (f.saturated = true → (createNodeLost n identity f).1.saturated = true) := by
  unfold createNodeLost
  split
  · rename_i hfound
    obtain ⟨i, hi⟩ := Option.isSome_iff_exists.1 hfound
    obtain ⟨hlt, hany, -⟩ := List.findIdx?_eq_some_iff_getElem.1 hi
    obtain ⟨r, hr, hkey⟩ := (Option.any_eq_true _ _).1 hany
    refine ⟨fun _ _ h => h, fun i r hn h => ?_, .inl ⟨i, r, ?_, by simpa using hkey⟩, id⟩
    · rw [hn] at h
      cases h
    · simp [recordAt, hlt, hr]
  · split
    · exact ⟨fun _ _ h => h, fun i r hn h => (by rw [show recordAt f i = some r from h] at hn; cases hn), .inr rfl,
        fun _ => rfl⟩
    · rename_i j hj
      obtain ⟨hlt, hempty, -⟩ := List.findIdx?_eq_some_iff_getElem.1 hj
      have hnone : recordAt f j = none := by
        simpa [recordAt, hlt] using hempty
      have hother : ∀ i r, i ≠ j → recordAt (putRecord j r { f with activation := f.activation + 1 }) i = recordAt f i := by
        intro i r hi
        simp [recordAt, putRecord, List.getD_eq_getElem?_getD, Ne.symm hi]
      have hsame : ∀ r, recordAt (putRecord j r { f with activation := f.activation + 1 }) j = some r := by
        intro r
        simp [recordAt, putRecord, hlt]
      refine ⟨fun i r h => ?_, fun i r hn h => ?_, .inl ⟨j, _, hsame _, rfl⟩, id⟩
      · have hi : i ≠ j := by
          rintro rfl
          rw [hnone] at h
          cases h
        exact (hother i _ hi).trans h
      · by_cases hi : i = j
        · subst hi
          have hr := (hsame _).symm.trans h
          cases hr
          exact ⟨rfl, rfl, rfl, rfl, rfl⟩
        · have := (hother i _ hi).symm.trans h
          rw [hn] at this
          cases this

/-- The same of all requests of a census. -/
theorem foldl_createNodeLost_places (l : List (Nat × Identity)) (a : FltStep) :
    (∀ i r, recordAt a.1 i = some r →
        recordAt (l.foldl (fun acc x => acc.andThen (createNodeLost x.1 x.2)) a).1 i = some r) ∧
      (∀ i r, recordAt a.1 i = none →
        recordAt (l.foldl (fun acc x => acc.andThen (createNodeLost x.1 x.2)) a).1 i = some r →
          ∃ x ∈ l, IsNodeLost x.1 x.2 r) ∧
      (∀ x ∈ l, (∃ i r, recordAt (l.foldl (fun acc x => acc.andThen (createNodeLost x.1 x.2)) a).1 i = some r ∧
          r.key = .nodeLost x.1) ∨
        (l.foldl (fun acc x => acc.andThen (createNodeLost x.1 x.2)) a).1.saturated = true) ∧
      (a.1.saturated = true → (l.foldl (fun acc x => acc.andThen (createNodeLost x.1 x.2)) a).1.saturated = true) := by
  induction l generalizing a with
  | nil => exact ⟨fun _ _ h => h, fun i r hn h => (by rw [show recordAt a.1 i = some r from h] at hn; cases hn), by simp, id⟩
  | cons x l ih =>
    obtain ⟨hkeep, hnew, hthere, hsat⟩ := createNodeLost_places x.1 x.2 a.1
    obtain ⟨ihkeep, ihnew, ihthere, ihsat⟩ := ih (a.andThen (createNodeLost x.1 x.2))
    refine ⟨fun i r h => ihkeep i r (hkeep i r h), fun i r hn h => ?_, fun y hy => ?_, fun h => ihsat (hsat h)⟩
    · cases hq : recordAt (createNodeLost x.1 x.2 a.1).1 i with
      | none =>
        obtain ⟨y, hy, hr⟩ := ihnew i r hq h
        exact ⟨y, by simp [hy], hr⟩
      | some q =>
        have hqr := (ihkeep i q hq).symm.trans h
        cases hqr
        exact ⟨x, by simp, hnew i r hn hq⟩
    · rcases List.mem_cons.1 hy with rfl | hy
      · rcases hthere with ⟨i, r, hr, hkey⟩ | hfull
        · exact .inl ⟨i, r, ihkeep i r hr, hkey⟩
        · exact .inr (ihsat hfull)
      · exact ihthere y hy

/-- The units newly LOST, with their new slots. -/
theorem mem_newlyLost {run : CensusRun} {coupling : Bool} {old : List Slot} {x : Nat × Identity} :
    x ∈ (censusResult run coupling old).newlyLost ↔
      ∃ n y, (retainedFrom run coupling old)[n]? = some y ∧ y.state ≠ .lost ∧
        x = (run.table.length + n + 1, y.identity) := by
  simp only [censusResult, List.mem_filterMap, Prod.exists]
  constructor
  · rintro ⟨y, n, hmem, h⟩
    split at h
    · cases h
    · rename_i hs
      cases h
      exact ⟨n, y, List.mem_zipIdx_iff_getElem?.1 hmem, hs, rfl⟩
  · rintro ⟨n, y, hy, hs, rfl⟩
    exact ⟨y, n, List.mem_zipIdx_iff_getElem?.2 hy, if_neg hs⟩

end Sys2Proof.Machine
end


/-! ### A census completed, as a whole -/

section

/-! PROOFS. O48. -/

namespace Sys2Proof.Machine

/-! ### Its parts (R31 to R33, R203) -/

theorem foldl_reportWake_only (rs : List (Nat × Identity)) (s : State) :
    OnlyChanges [.pwc] s (rs.foldl (fun acc x => reportWake (compositionReport x.1 x.2) acc) s) := by
  induction rs generalizing s with
  | nil => exact (OnlyChanges.refl s).mono (by simp)
  | cons r rs ih => exact ((reportWake_only _ s).trans (ih _)).mono (by simp)

theorem lingerStart_congr {s t : State} (hn : t.now = s.now) (hp : t.pwc.power = s.pwc.power)
    (hm : t.params = s.params) : lingerStart t = lingerStart s := by
  unfold lingerStart
  rw [hn, hp, hm]

/-- The list a hand-over leaves, by the re-evaluation of what its owner keeps. -/
theorem handOverWith_handed (owned : List DisplayEntry → List DisplayEntry) (es : List FltEffect) (s : State) :
    (handOverWith owned es s).dsr.list =
      (rebuildList s.params s.flt { s.dsr with list := owned (handedList es s) }).2.list := by
  have heq := reportActivations_eq es s
  have hl : lingerStart (reportActivations es s) = lingerStart s :=
    lingerStart_congr (by rw [heq]) (reportActivations_tame es s).power.power (by rw [heq])
  unfold handOverWith
  simp only
  rw [reevaluate_list, hl, heq]
  rfl

/-- What a completed census hands to the display: its Fault Table's effects, and the tables it has before that. -/
structure CensusHanded (run : CensusRun) (t w : State) : Prop where
  now : w.now = t.now
  params : w.params = t.params
  power : w.pwc.power = t.pwc.power
  dsr : w.dsr = t.dsr
  clc : w.clc = (closeCensus run t).clc
  ldt : w.ldt = { lookup (identitiesOf (newTable run t.clc.coupling t.clc.table)) t.ldt with
    loadsFull := loadsFullDue (lookup (identitiesOf (newTable run t.clc.coupling t.clc.table)) t.ldt) }
  records : w.flt.records = (applyCensus (censusResult run t.clc.coupling t.clc.table) t.flt).1.records
  saturated : w.flt.saturated = (applyCensus (censusResult run t.clc.coupling t.clc.table) t.flt).1.saturated
  tells : Says [.censusDone t.clc.censusNumber (censusCounts run t.clc.coupling t.clc.table)] t.hlc w.hlc
  complete : completeCensus run t = handOverWith
    (fun list => list.filterMap
      (censusResolved (identitiesOf t.clc.table) (censusResult run t.clc.coupling t.clc.table)))
    (applyCensus (censusResult run t.clc.coupling t.clc.table) t.flt).2 w

theorem setLoadsFull_says {b : Bool} {h : Hlc} {s : State} (e : s.hlc = h) : Says [] h (setLoadsFull b s).hlc := by
  subst e
  exact markIf_says _ _ { s with ldt := { s.ldt with loadsFull := b } }

theorem censusLoads_says (run : CensusRun) (t : State) :
    Says [.censusDone t.clc.censusNumber (censusCounts run t.clc.coupling t.clc.table)] t.hlc (censusLoads run t).hlc := by
  have hclosed : Says [.censusDone t.clc.censusNumber (censusCounts run t.clc.coupling t.clc.table)] t.hlc
      (censusClosed run t).hlc := send_says (closeCensus run t) rfl rfl
  exact hclosed.trans (setLoadsFull_says rfl)

theorem censusLoads_only (run : CensusRun) (t : State) :
    OnlyChanges [.clc, .ldt, .hlc] t (censusLoads run t) := by
  intro b hb
  cases b <;> simp_all [Same, censusLoads, censusClosed, closeCensus]

theorem censusLoads_ldt (run : CensusRun) (t : State) :
    (censusLoads run t).ldt = { lookup (identitiesOf (newTable run t.clc.coupling t.clc.table)) t.ldt with
      loadsFull := loadsFullDue (lookup (identitiesOf (newTable run t.clc.coupling t.clc.table)) t.ldt) } := by
  simp [censusLoads, censusClosed, closeCensus, setLoadsFull]

theorem censusLoads_clc (run : CensusRun) (t : State) : (censusLoads run t).clc = (closeCensus run t).clc := by
  simp [censusLoads, censusClosed]

theorem commitFaults_only (f : Flt) (s : State) : OnlyChanges [.flt, .hlc] s (commitFaults f s) := by
  intro b hb
  cases b <;> simp_all [Same]

theorem completeCensus_handed (run : CensusRun) (t : State) : ∃ w, CensusHanded run t w := by
  obtain ⟨l, hl⟩ : ∃ l, l = censusLoads run t := ⟨_, rfl⟩
  obtain ⟨f, hf⟩ : ∃ f, f = (applyCensus (censusResult run t.clc.coupling t.clc.table) t.flt).1 := ⟨_, rfl⟩
  obtain ⟨rs, hrs⟩ : ∃ rs, rs = (censusResult run t.clc.coupling t.clc.table).newlyLost := ⟨_, rfl⟩
  have hparts := completeCensus_parts run t
  rw [censusLoads_flt, ← hf, ← hl, ← hrs] at hparts
  have hlonly : OnlyChanges [.clc, .ldt, .hlc] t l := hl ▸ censusLoads_only run t
  have honly : OnlyChanges [.clc, .ldt, .flt, .hlc, .pwc] t
      (rs.foldl (fun acc x => reportWake (compositionReport x.1 x.2) acc) (commitFaults f l)) :=
    ((hlonly.trans (commitFaults_only f l)).trans (foldl_reportWake_only rs _)).mono (by simp)
  have hwake := foldl_reportWake_only rs (commitFaults f l)
  have hflt : (rs.foldl (fun acc x => reportWake (compositionReport x.1 x.2) acc) (commitFaults f l)).flt =
      (commitFaults f l).flt := hwake .flt (by simp)
  have hhlc : (rs.foldl (fun acc x => reportWake (compositionReport x.1 x.2) acc) (commitFaults f l)).hlc =
      (commitFaults f l).hlc := hwake .hlc (by simp)
  refine ⟨_, {
    now := honly .now (by simp)
    params := honly .params (by simp)
    dsr := honly .dsr (by simp)
    power := ?_
    clc := ?_
    ldt := ?_
    records := ?_
    saturated := ?_
    tells := ?_
    complete := hparts }⟩
  · refine (foldl_reportWake_tame rs _).power.power.trans ?_
    rw [commitFaults_pwc, show l.pwc = t.pwc from hlonly .pwc (by simp)]
  · rw [foldl_reportWake_clc, commitFaults_clc, hl, censusLoads_clc]
  · rw [show (rs.foldl (fun acc x => reportWake (compositionReport x.1 x.2) acc) (commitFaults f l)).ldt =
      (commitFaults f l).ldt from hwake .ldt (by simp), commitFaults_ldt, hl, censusLoads_ldt]
  · rw [hflt, hf]
    simp [commitFaults]
  · rw [hflt, hf]
    simp [commitFaults]
  · rw [hhlc]
    have h := (censusLoads_says run t).trans (commitFaults_says f (censusLoads run t))
    rw [← hl] at h
    exact h

/-! ### The display's RESOLVED entries (R134) -/

theorem newSlot_of_moves {old new : List Identity} {res : CensusResult} {id : Identity} {k : Nat}
    (hm : res.moves = old.map (fun id => (new.findIdx? (· = id)).map (· + 1)))
    (hk : old.findIdx? (· = id) = some k) : res.newSlot (k + 1) = (new.findIdx? (· = id)).map (· + 1) := by
  obtain ⟨hlt, hid, -⟩ := List.findIdx?_eq_some_iff_getElem.1 hk
  have he : old[k] = id := by simpa using hid
  simp [CensusResult.newSlot, hm, List.getD_eq_getElem?_getD, hlt, he]

theorem censusResolved_facts (old new : List Identity) (res : CensusResult) (e : DisplayEntry)
    (ho : res.oldSignature = signatureOf old) (hn : res.newSignature = signatureOf new)
    (hm : res.moves = old.map (fun id => (new.findIdx? (· = id)).map (· + 1))) :
    (e.state ≠ .resolved ∨ e.subject = none → censusResolved old res e = some e) ∧
    (e.state = .resolved → e.subject = some .remainder →
      censusResolved old res e = if signatureOf old = signatureOf new then some e else none) ∧
    (∀ n id, e.state = .resolved → e.subject = some (.slot n) → e.identity = some id → id ∈ old →
      censusResolved old res e =
        ((new.findIdx? (· = id)).map (· + 1)).map fun m =>
          if m = n then e else { e with subject := some (.slot m), version := (e.version + 1) % 16 }) := by
  refine ⟨fun h => ?_, fun hs hsub => ?_, fun n id hs hsub hid hmem => ?_⟩
  · rcases h with h | h
    · simp [censusResolved, DisplayEntry.live, h]
    · simp [censusResolved, h]
  · have hlive : e.live = false := by simp [DisplayEntry.live, hs]
    by_cases hsig : signatureOf old = signatureOf new <;>
      simp [censusResolved, hlive, hsub, CensusResult.signatureChanged, ho, hn, hsig]
  · have hlive : e.live = false := by simp [DisplayEntry.live, hs]
    obtain ⟨k, hk⟩ : ∃ k, old.findIdx? (· = id) = some k := by
      rw [← Option.isSome_iff_exists, List.findIdx?_isSome, List.any_eq_true]
      exact ⟨id, hmem, by simp⟩
    simp only [censusResolved, hlive, hsub, hid, Option.bind_some, hk, newSlot_of_moves hm hk]
    cases (new.findIdx? (· = id)).map (· + 1) with
    | none => rfl
    | some m => by_cases hmn : m = n <;> simp [hmn, stepVersion]

/-! ### The ways a census completes (R26, R28) -/

theorem rollUnanswered_second {run : CensusRun} (s : State) (h : 1 ≤ run.silent) :
    rollUnanswered run s = completeCensus run s := if_pos (by omega)

theorem exec_completes {i : Instr} {run last : CensusRun} {x : Exchange} {closes time idle : Nat} {s : State}
    (hh : s.pwc.held = false) (hc : s.clc.census = some last) (hl : s.clc.line = .window x closes)
    (h : (run = last ∧ ((x = .roll ∧ 1 ≤ last.silent) ∨ ∃ a, x = .assign a ∧ a.repeated = true) ∧
        ((i = .answerWindowClose ∧ time = max s.now closes ∧ idle = closes - answerWindow) ∨
          (i = .chainAnswerAbandon ∧ time = s.now ∧ idle = s.now - chainIdle))) ∨
      (run = last ∧ time = s.now ∧ idle = s.now ∧ ∃ f, i = .chainAnswerComplete f ∧
        ((x = .roll ∧ 1 ≤ last.silent ∧ (f.ty ≠ 2 ∨ f.addr ≠ 0 ∨ f.len ≠ 10 ∨
            f.crc ≠ crc8 (f.addr :: f.ty :: f.len :: f.payload) ∨ ∃ c, 4 < (lampsAt f.payload 6).get c)) ∨
          ∃ a, x = .assign a ∧ a.repeated = true ∧ f ≠ chainFrame 0 4 (assignPayload a s.clc.censusNumber))) ∨
      (time = s.now ∧ idle = s.now ∧ 12 ≤ last.answered ∧ ∃ a, x = .assign a ∧
        i = .chainAnswerComplete (chainFrame 0 4 (assignPayload a s.clc.censusNumber)) ∧
        run = applyChoice a last)) :
    exec i s = .next (finish (completeCensus run (endExchange idle { s with now := time }))) := by
  have hfail : ((x = .roll ∧ 1 ≤ last.silent) ∨ ∃ a, x = .assign a ∧ a.repeated = true) → ∀ (t : State) (k : Nat),
      t.clc.census = some last → failExchange x k t = completeCensus last (endExchange k t) := by
    rintro (⟨rfl, hs⟩ | ⟨a, rfl, hr⟩) t k ht
    · rw [failExchange_roll _ ht, rollUnanswered_second _ hs]
    · rw [failExchange_assign _ _ ht]
      exact if_pos hr
  rcases h with ⟨rfl, hx, ⟨rfl, htime, hidle⟩ | ⟨rfl, htime, hidle⟩⟩ |
    ⟨rfl, rfl, rfl, f, rfl, ⟨rfl, hs, hf⟩ | ⟨a, rfl, hr, hf⟩⟩ | ⟨rfl, rfl, h12, a, rfl, rfl, rfl⟩
  · rw [exec_unanswered hh hl, hfail hx _ _ (by exact hc), htime, hidle]
    rfl
  · rw [exec_abandoned hh hl, hfail hx _ _ hc, htime, hidle]
  · rw [exec_invalid hh hl (classify_roll_invalid hf), hfail (.inl ⟨rfl, hs⟩) _ _ hc]
  · rw [exec_notEchoed hh hc hl hf, assignFailed, if_pos hr]
  · rw [exec_echoed hh hc hl, assignDone, if_pos h12]

theorem retainedFrom_eq (run : CensusRun) (coupling : Bool) (old : List Slot) :
    retainedFrom run coupling old =
      if coupling then []
      else (old.filter fun y => decide (y.identity ∉ run.table.map (·.identity))).take (6 - run.table.length) := by
  have h : missingSlots run old = old.filter fun y => decide (y.identity ∉ run.table.map (·.identity)) := by
    unfold missingSlots
    refine List.filter_congr fun y _ => ?_
    rw [Bool.eq_iff_iff]
    simp [List.any_eq_false]
  unfold retainedFrom
  rw [h]

theorem recordAt_contents {f g : Flt} (h : recordContents f = recordContents g) (i : Nat) :
    (recordAt f i).map FaultRecord.content = (recordAt g i).map FaultRecord.content := by
  have hi := congrArg (fun l => l.getD i none) h
  simp only [recordContents, List.getD_eq_getElem?_getD, List.getElem?_map] at hi
  unfold recordAt
  rw [List.getD_eq_getElem?_getD, List.getD_eq_getElem?_getD]
  cases hf : f.records[i]? <;> cases hg : g.records[i]? <;> rw [hf, hg] at hi <;> exact hi

theorem signatureChanged_eq (run : CensusRun) (coupling : Bool) (old : List Slot) :
    (censusResult run coupling old).signatureChanged =
      decide (signatureOf (identitiesOf old) ≠ signatureOf (identitiesOf (newTable run coupling old))) := by
  by_cases h : signatureOf (identitiesOf old) = signatureOf (identitiesOf (newTable run coupling old)) <;>
    simp [CensusResult.signatureChanged, censusResult, h]

theorem completeCensus_only (run : CensusRun) (t : State) :
    OnlyChanges [.clc, .ldt, .flt, .dsr, .hlc, .pwc] t (completeCensus run t) := by
  rw [completeCensus_eq]
  intro b hb
  cases b <;> simp_all [Same]

/-- The rebuilt list depends on the Fault Table by its records alone. -/
theorem rebuildList_congr {p : Params} {f g : Flt} {d : Dsr} (h : f.records = g.records) :
    (rebuildList p f d).2.list = (rebuildList p g d).2.list := by
  unfold rebuildList
  rw [h]

/-- Settles O48: what a completion leaves, and what becomes of the RESOLVED entries. -/
theorem aCensusCompletes : Obligations.ACensusCompletes := by
  refine ⟨fun i run last x closes time idle s hh hc hl hi => ?_, censusResolved_facts⟩
  have hwork := exec_completes hh hc hl hi
  obtain ⟨t, ht⟩ : ∃ t : State, t = endExchange idle { s with now := time } := ⟨_, rfl⟩
  rw [← ht] at hwork
  obtain ⟨w, hw⟩ := completeCensus_handed run t
  obtain ⟨u, hu⟩ : ∃ u, u = completeCensus run t := ⟨_, rfl⟩
  have hclc : u.clc = (closeCensus run t).clc := hu ▸ completeCensus_clc run t
  have hueq := completeCensus_eq run t
  have hcomplete := hw.complete
  rw [← hu] at hwork hueq hcomplete
  have htflt : t.flt = s.flt := by rw [ht]; rfl
  have htclc : t.clc = { s.clc with line := .idle, idleFrom := max s.clc.idleFrom idle } := by rw [ht]; rfl
  have htable : t.clc.table = s.clc.table := by rw [htclc]
  have hcoupling : t.clc.coupling = s.clc.coupling := by rw [htclc]
  have hutable : u.clc.table = newTable run s.clc.coupling s.clc.table := by
    rw [hclc, ← htable, ← hcoupling]
    rfl
  have hunow : u.now = time := by
    rw [hueq, ht]
    rfl
  obtain ⟨res, hres⟩ : ∃ res, res = censusResult run s.clc.coupling s.clc.table := ⟨_, rfl⟩
  have htres : censusResult run t.clc.coupling t.clc.table = res := by rw [htable, hcoupling, hres]
  obtain ⟨kept, hkept⟩ : ∃ kept, kept = retainedFrom run s.clc.coupling s.clc.table := ⟨_, rfl⟩
  obtain ⟨ids, hids⟩ : ∃ ids, ids = identitiesOf (newTable run s.clc.coupling s.clc.table) := ⟨_, rfl⟩
  have hwrecords := hw.records
  have hwsaturated := hw.saturated
  rw [htres, htflt] at hwrecords hwsaturated
  have hwldt : w.ldt = { lookup ids s.ldt with loadsFull := loadsFullDue (lookup ids s.ldt) } := by
    have h := hw.ldt
    rw [htable, hcoupling, ← hids, show t.ldt = s.ldt by rw [ht]; rfl] at h
    exact h
  have huldt : u.ldt = w.ldt := by rw [hcomplete, handOverWith_eq]
  have hentries : ∀ i, entryAt u.ldt i = entryAt (lookup ids s.ldt) i := fun i => by rw [huldt, hwldt]; rfl
  have hcontents : recordContents u.flt = recordContents (applyCensus res s.flt).1 := by
    rw [hcomplete, handOverWith_contents]
    simp only [recordContents, hwrecords]
  have hat := fun i => recordAt_contents hcontents i
  have husaturated : u.flt.saturated = (applyCensus res s.flt).1.saturated := by
    rw [hcomplete, handOverWith_flt]
    exact hwsaturated
  have hsettled : ∀ i, recordAt (settledFaults res s.flt).1 i =
      (recordAt s.flt i).bind (censusRecord (identitiesOf s.clc.table) ids run.table.length) := by
    intro i
    rw [recordAt_settledFaults]
    refine congrArg _ (funext fun r => ?_)
    have h := settledRecord_eq (res := res) (old := identitiesOf s.clc.table) (new := ids) r
      (fun n => by rw [hres, hids]; exact censusResult_newPlace _ _ _ n)
      (by rw [hres, hids]; exact signatureChanged_eq run s.clc.coupling s.clc.table)
    rw [h, hres]
    rfl
  obtain ⟨hkeeps, hcreated, hasked, -⟩ := foldl_createNodeLost_places res.newlyLost (settledFaults res s.flt)
  rw [← applyCensus_eq] at hkeeps hcreated hasked
  have hsays := hw.tells
  have huclc : u.clc = { s.clc with
      table := u.clc.table, census := none, coupling := false, holdoff := some (u.now + holdoffTime)
      cycleCounter := 0, task := none, line := .idle, idleFrom := max s.clc.idleFrom idle
      counts := censusCounts run s.clc.coupling s.clc.table
      cycle := some (newCycle u.now) } := by
    rw [hutable, hunow, hclc, closeCensus, htclc, ht]
    rfl
  have hcounts : censusCounts run s.clc.coupling s.clc.table =
      { enumerated := run.table.length, retained := u.clc.table.length - run.table.length
        duplicates := run.duplicates, beyond := run.beyond } := by
    rw [hutable]
    simp [censusCounts, newTable]
  have hcontent : ∀ i r, recordAt (applyCensus res s.flt).1 i = some r →
      ∃ q, recordAt u.flt i = some q ∧ q.content = r.content := by
    intro i r hr
    have h := hat i
    rw [hr, Option.map_some, Option.map_eq_some_iff] at h
    exact h
  refine ⟨u, _, ids, kept, res, hwork, hunow, rfl, ?_, ?_, ?_, ?_, ?_, ?_, fun i e he hk => ?_, fun i e he hk hlock => ?_,
    hres, hcontents, fun i r hr => ?_, fun i r hn hr => ?_, fun n y hy hs => ?_, ?_, ?_⟩
  · rw [hkept, retainedFrom_eq]
  · rw [hutable, hkept]
    rfl
  · rw [← hcounts]
    exact huclc
  · rw [hcomplete, (handOverWith_says _ _ w).replies, hw.tells.replies, List.append_nil, ← hcomplete, htclc,
      show t.hlc = s.hlc by rw [ht]; rfl, huclc]
  · rw [hutable, hids]
    rfl
  · rw [huldt, hwldt]
    rfl
  · have hm : markEntry (compositionKeys ids) e = { e with inComposition := true, age := 0 } := if_pos hk
    rw [hentries, lookup_keeps he (by rw [hm]; simp [evictable]), hm]
  · have hm : markEntry (compositionKeys ids) e = { endRunsOf e with inComposition := false } := if_neg hk
    rw [hentries, lookup_keeps he (by rw [hm]; simp [evictable, endRunsOf, hlock]), hm]
  · have h := hkeeps i r ((hsettled i).trans hr)
    rw [hat, h]
    rfl
  · obtain ⟨q, hq, hqr⟩ := Option.map_eq_some_iff.1 ((hat i).symm.trans (congrArg _ hr))
    obtain ⟨x, hx, hkey, hidentity, hkind, hstate, hacked⟩ := hcreated i q ((hsettled i).trans hn) hq
    rw [hres] at hx
    obtain ⟨n, y, hy, hs, rfl⟩ := mem_newlyLost.1 hx
    refine ⟨n, y, by rw [hkept]; exact hy, hs, ?_, ?_, ?_, ?_, ?_⟩
    · exact (congrArg FaultRecord.key hqr).symm.trans hkey
    · exact (congrArg FaultRecord.identity hqr).symm.trans hidentity
    · exact (congrArg FaultRecord.kind hqr).symm.trans hkind
    · exact (congrArg FaultRecord.state hqr).symm.trans hstate
    · exact (congrArg FaultRecord.acked hqr).symm.trans hacked
  · have hx : (run.table.length + n + 1, y.identity) ∈ res.newlyLost := by
      rw [hres]
      exact mem_newlyLost.2 ⟨n, y, by rw [← hkept]; exact hy, hs, rfl⟩
    rcases hasked _ hx with ⟨i, r, hr, hkey⟩ | hfull
    · obtain ⟨q, hq, hqr⟩ := hcontent i r hr
      exact .inl ⟨i, q, hq, (congrArg FaultRecord.key hqr).trans hkey⟩
    · exact .inr (husaturated.trans hfull)
  · have hlinger : lingerStart w = lingerStart { s with now := time } :=
      lingerStart_congr (by rw [hw.now, ht]; rfl) (by rw [hw.power, ht]; rfl) (by rw [hw.params, ht]; rfl)
    rw [hcomplete, handOverWith_handed, htres, htflt, htable, handedList, hlinger, hw.dsr, hw.params, hwrecords,
      show t.dsr = s.dsr by rw [ht]; rfl, show t.params = s.params by rw [ht]; rfl]
    exact rebuildList_congr hwrecords
  · have htonly : OnlyChanges [.now, .clc] s t := by
      rw [ht]
      exact movedClc_only _ _ s
    rw [hu]
    exact (htonly.trans (completeCensus_only run t)).mono (by simp)

end Sys2Proof.Machine
end


/-! ### The store load makes the part ACTIVE -/

section

/-! PROOFS. O37. -/

namespace Sys2Proof.Machine

theorem setStoreFault_eq (b : StoreBlock) (x : Bool) (s : State) :
    setStoreFault b x s = { s with
      stc := { s.stc with fault := s.stc.fault.put b x }
      hlc := { s.hlc with
        changes := if s.stc.fault.get b = x then s.hlc.changes else addMatter (.storeFault b) s.hlc.changes } } :=
  markIf_bne _ _ _ _

/-- Working memory with what a load gives it. -/
def loadedWith (p : Params) (rs : List Rule) (es : List (Option Entry)) (f : StoreFaults) (ms : List Matter)
    (s : State) : State :=
  { s with
    params := p, jge := { s.jge with rules := rs }, ldt := { s.ldt with entries := es }
    stc := { s.stc with fault := f }, hlc := { s.hlc with changes := ms } }

theorem storeTaken_with {p : Params} {rs : List Rule} {es : List (Option Entry)} {s : State}
    (hp : p = if s.stc.good .config then s.stc.config.content else Params.default)
    (hr : rs = if s.stc.good .rules then s.stc.rules.content else defaultRules)
    (he : es = ((if s.stc.good .loadsA then s.stc.loadsA.content else List.replicate 12 none) ++
      (if s.stc.good .loadsB then s.stc.loadsB.content else List.replicate 16 none)).map fun o => o.map loadEntry) :
    storeTaken s = loadedWith p rs es s.stc.fault s.hlc.changes s := by
  unfold storeTaken
  rw [← hp, ← hr, ← he]
  rfl

/-- The four faults of the load, whatever they were. -/
theorem setStoreFaults_loadedWith (p : Params) (rs : List Rule) (es : List (Option Entry)) (f : StoreFaults)
    (ms : List Matter) (c r a b : Bool) (s : State) :
    ∃ ns, setStoreFault .loadsB b (setStoreFault .loadsA a (setStoreFault .rules r (setStoreFault .config c
      (loadedWith p rs es f ms s)))) = loadedWith p rs es { config := c, rules := r, loadsA := a, loadsB := b } ns s := by
  simp only [setStoreFault_eq]
  exact ⟨_, rfl⟩

/-- Working memory after the load: what the blocks give, and the faults they have. -/
theorem loadStore_with {p : Params} {rs : List Rule} {es : List (Option Entry)} {s : State}
    (hp : p = if s.stc.good .config then s.stc.config.content else Params.default)
    (hr : rs = if s.stc.good .rules then s.stc.rules.content else defaultRules)
    (he : es = ((if s.stc.good .loadsA then s.stc.loadsA.content else List.replicate 12 none) ++
      (if s.stc.good .loadsB then s.stc.loadsB.content else List.replicate 16 none)).map fun o => o.map loadEntry) :
    ∃ ms, loadStore s = loadedWith p rs es
      { config := !s.stc.good .config, rules := !s.stc.good .rules, loadsA := !s.stc.good .loadsA
        loadsB := !s.stc.good .loadsB } ms s := by
  rw [loadStore_eq, storeTaken_with hp hr he]
  exact setStoreFaults_loadedWith _ _ _ _ _ _ _ _ _ _

/-- The end of a start: the notice of what has changed, the timers, and the first census. -/
def started (s : State) : State :=
  triggerCensus (startAging (restartSilence (if s.hlc.changes.isEmpty then s else sendStatusChange s)))

theorem completeLoad_eq (s : State) :
    completeLoad s = started (send (readyNotice (setPower .active (loadStore s))) (setPower .active (loadStore s))) :=
  rfl

/-- What a start's end leaves, with no capture to end. -/
structure StartedFrom (z v : State) : Prop where
  clc : v.clc = censusStarted z.now z.clc
  pwc : v.pwc = { z.pwc with agingSince := some z.now }
  silence : v.hlc.silence = some (z.now + silencePeriod)
  changes : v.hlc.changes = []
  tells : Says [] { z.hlc with silence := some (z.now + silencePeriod) } v.hlc
  rest : OnlyChanges [.clc, .hlc, .pwc] z v

theorem started_from {z : State} (ha : z.pwc.power = .active) (hc : z.clc.census = none)
    (hcap : z.svc.state ≠ .capturing) : StartedFrom z (started z) := by
  obtain ⟨y, hy⟩ : ∃ y, y = if z.hlc.changes.isEmpty then z else sendStatusChange z := ⟨_, rfl⟩
  have hysays : Says [] z.hlc y.hlc := by
    rw [hy]
    split
    · exact .refl _
    · exact sendStatusChange_says z
  have hyonly : OnlyChanges [.hlc] z y := by
    rw [hy]
    split
    · exact (OnlyChanges.refl z).mono (by simp)
    · rw [sendStatusChange_eq]
      intro b hb
      cases b <;> simp_all [Same]
  have hychanges : y.hlc.changes = [] := by
    rw [hy]
    split
    · rename_i h
      exact List.isEmpty_iff.1 h
    · exact sendStatusChange_changes z
  have hynow : y.now = z.now := hyonly .now (by simp)
  have hypwc : y.pwc = z.pwc := hyonly .pwc (by simp)
  have hyclc : y.clc = z.clc := hyonly .clc (by simp)
  have hstart : started z = setClc (censusStarted y.now y.clc) (startAging (restartSilence y)) := by
    rw [started, ← hy, triggerCensus_starts (s := startAging (restartSilence y)) 
      (by rw [show (startAging (restartSilence y)).pwc.power = y.pwc.power from rfl, hypwc]; exact ha)
      (by rw [show (startAging (restartSilence y)).clc = y.clc from rfl, hyclc]; exact hc)]
    exact startCensus_alone (s := startAging (restartSilence y))
      (by rw [show (startAging (restartSilence y)).svc = z.svc from hyonly .svc (by simp)]; exact hcap)
  rw [hstart]
  exact {
    clc := by rw [hynow, hyclc]; rfl
    pwc := by
      rw [← hypwc, ← hynow]
      rfl
    silence := by
      rw [← hynow]
      rfl
    changes := hychanges
    tells := by
      refine ⟨?_, hysays.replies⟩
      have h := hysays.only
      rw [← hynow]
      exact congrArg (fun k : Hlc => { k with silence := some (y.now + silencePeriod) }) h
    rest := by
      have h : OnlyChanges [.clc, .hlc, .pwc] y (setClc (censusStarted y.now y.clc) (startAging (restartSilence y))) := by
        intro b hb
        cases b <;> simp_all [Same, startAging, restartSilence]
      exact (hyonly.trans h).mono (by simp) }

/-- What a load makes of a part in START, whatever the blocks give. -/
theorem load_active {p : Params} {rs : List Rule} {es : List (Option Entry)} {f : StoreFaults} {ms : List Matter}
    {s x v : State} (hc : s.clc.census = none) (hcap : s.svc.state ≠ .capturing)
    (hx : x = setPower .active (loadedWith p rs es f ms s)) (hvdef : v = started (send (readyNotice x) x)) :
    (finish v).pwc = { s.pwc with power := .active, agingSince := some s.now, wake := false } ∧
      (finish v).params = p ∧ (finish v).jge = { s.jge with rules := rs } ∧
      (finish v).ldt = { s.ldt with entries := es } ∧ (finish v).stc = { s.stc with fault := f } ∧
      replies (finish v).hlc = replies s.hlc ++
        [.ready s.pwc.cause (finish v).stc.fault
          (((finish v).ldt.entries.filterMap id).filter fun e => !isRemainder e.key).length
          (((finish v).ldt.entries.filterMap id).filter fun e => isRemainder e.key).length Config.storeFormat] ∧
      Spoke s (finish v) ∧ (finish v).clc.census = some emptyRun ∧ (finish v).clc.task = some .roll ∧
      (finish v).clc.table = s.clc.table ∧
      (finish v).clc.censusNumber = (if 255 ≤ s.clc.censusNumber then 1 else s.clc.censusNumber + 1) ∧
      OnlyChanges [.params, .clc, .ldt, .jge, .dsr, .hlc, .stc, .pwc] s (finish v) := by
  obtain ⟨z, hz⟩ : ∃ z, z = send (readyNotice x) x := ⟨_, rfl⟩
  rw [← hz] at hvdef
  have hzfields : z.now = s.now ∧ z.pwc = { s.pwc with power := .active } ∧ z.clc = s.clc ∧ z.svc = s.svc := by
    rw [hz, hx]
    exact ⟨rfl, rfl, rfl, rfl⟩
  obtain ⟨hznow, hzpwc, hzclc, hzsvc⟩ := hzfields
  have hv := started_from (z := z) (by rw [hzpwc]) (by rw [hzclc]; exact hc) (by rw [hzsvc]; exact hcap)
  rw [← hvdef] at hv
  have hfinish := finish_quiet v hv.changes
  have hvpwc : v.pwc = { s.pwc with power := .active, agingSince := some s.now } := by
    rw [hv.pwc, hzpwc, hznow]
  have hfhlc : (finish v).hlc = v.hlc := by rw [hfinish]; rfl
  have hstc : (finish v).stc = x.stc := by
    rw [hfinish]
    exact (show v.stc = z.stc from hv.rest .stc (by simp)).trans (by rw [hz]; rfl)
  have hldt : (finish v).ldt = x.ldt := by
    rw [hfinish]
    exact (show v.ldt = z.ldt from hv.rest .ldt (by simp)).trans (by rw [hz]; rfl)
  have hfclc : (finish v).clc = censusStarted z.now z.clc := by
    rw [hfinish]
    exact hv.clc
  have hzsays : Says [readyNotice x] x.hlc z.hlc := by
    rw [hz]
    exact send_says x rfl rfl
  refine ⟨?_, ?_, ?_, ?_, ?_, ?_, ?_, ?_, ?_, ?_, ?_, ?_⟩
  · rw [hfinish, show (refreshLines v).pwc = { v.pwc with wake := wakeDue v } from rfl, hvpwc,
      show wakeDue v = false by simp [wakeDue, hvpwc]]
  · rw [hfinish]
    exact (show v.params = z.params from hv.rest .params (by simp)).trans (by rw [hz, hx]; rfl)
  · rw [hfinish]
    exact (show v.jge = z.jge from hv.rest .jge (by simp)).trans (by rw [hz, hx]; rfl)
  · rw [hldt, hx]
    rfl
  · rw [hstc, hx]
    rfl
  · rw [hfhlc, hv.tells.replies, List.append_nil, hldt, hstc]
    refine (show replies { z.hlc with silence := some (z.now + silencePeriod) } = replies z.hlc from rfl).trans ?_
    rw [hzsays.replies, hx]
    rfl
  · unfold Spoke
    have h := hv.tells.only
    rw [hzsays.only] at h
    rw [hfhlc, h, hx, hv.changes, hznow]
    rfl
  · rw [hfclc]
    rfl
  · rw [hfclc]
    rfl
  · rw [hfclc, hzclc]
    rfl
  · rw [hfclc, hzclc]
    rfl
  · have hxonly : OnlyChanges [.params, .ldt, .jge, .hlc, .stc, .pwc] s x := by
      rw [hx]
      intro b hb
      cases b <;> simp_all [Same, loadedWith]
    have hzonly : OnlyChanges [.hlc] x z := by
      rw [hz]
      exact send_only _ _
    exact (((hxonly.trans hzonly).trans hv.rest).trans (finish_only v)).mono (by simp)

/-- Settles O37: the load, READY, the timers and the first census. -/
theorem theStoreLoadMakesThePartActive : Obligations.TheStoreLoadMakesThePartActive := by
  intro s hh hp hc hcap
  obtain ⟨ms, hload⟩ := loadStore_with (s := s) rfl rfl rfl
  refine ⟨_, ?_, load_active (ms := ms) hc hcap rfl rfl⟩
  refine congrArg Host.Outcome.next ((event_released _ s hh).trans (congrArg finish ?_))
  rw [if_pos hp, completeLoad_eq, hload]

end Sys2Proof.Machine
end


/-! ### The aging sweep -/

section

/-! PROOFS. O39. -/

namespace Sys2Proof.Machine

/-- What the sweep's own removals and ages make of an entry out of the composition (R51). -/
theorem ageEntry_cases (e : Entry) :
    (e.inComposition = true → ageEntry e = some e) ∧
      (e.inComposition = false → e.lock = .commissioned → ageEntry e = some { e with age := min (e.age + 1) 3 }) ∧
      (e.inComposition = false → e.lock = .opened →
        ageEntry e = if e.age = 3 then none else some { e with age := min (e.age + 1) 3 }) := by
  refine ⟨fun h => ?_, fun h hl => ?_, fun h hl => ?_⟩
  · simp [ageEntry, h]
  · simp [ageEntry, h, hl]
  · simp [ageEntry, h, hl]

theorem sweep_unlooked {ids : List Identity} {t : Ldt} (h : t.signatureTrack = none) :
    sweep ids t = mapEntries ageEntry t := by
  simp only [sweep, h]

theorem sweep_looked {ids : List Identity} {t : Ldt} (h : t.signatureTrack ≠ none) :
    sweep ids t = retrack ids ((compositionKeys ids).foldl ensureEntry (mapEntries ageEntry t)) := by
  obtain ⟨x, hx⟩ := Option.ne_none_iff_exists'.1 h
  simp only [sweep, hx]

theorem foldl_ensureEntry_keeps {i : Nat} {e : Entry} (ks : List EntryKey) {t : Ldt} (h : entryAt t i = some e)
    (he : evictable e = false) : entryAt (ks.foldl ensureEntry t) i = some e := by
  induction ks generalizing t with
  | nil => exact h
  | cons k ks ih => exact ih (ensureEntry_keeps k h he)

theorem findEntry_isSome {t : Ldt} {k : EntryKey} {j : Nat} {d : Entry} (h : entryAt t j = some d) (hk : d.key = k) :
    (findEntry t k).isSome = true := by
  have hmem : some d ∈ t.entries := by
    unfold entryAt at h
    rw [List.getD_eq_getElem?_getD] at h
    cases hj : t.entries[j]? with
    | none => simp [hj] at h
    | some o =>
      rw [hj] at h
      exact h ▸ List.mem_of_getElem? hj
  rw [findEntry, List.findIdx?_isSome, List.any_eq_true]
  exact ⟨some d, hmem, by simp [hk]⟩

theorem ensureEntry_found {t : Ldt} {k : EntryKey} (h : (findEntry t k).isSome = true) : ensureEntry t k = t := if_pos h

/-- One retry writes at most one place: a new entry of a key that no entry of the table has. -/
theorem ensureEntry_at (t : Ldt) (k : EntryKey) (i : Nat) :
    entryAt (ensureEntry t k) i = entryAt t i ∨
      (findEntry t k = none ∧ entryAt (ensureEntry t k) i = some (freshEntry k)) := by
  unfold ensureEntry createEntry
  split
  · exact .inl rfl
  · rename_i hnone
    split
    · rename_i j _
      by_cases hj : j = i
      · subst hj
        by_cases hlt : j < t.entries.length
        · exact .inr ⟨by simpa using hnone, by simp [entryAt, setEntry, hlt]⟩
        · refine .inl ?_
          simp [entryAt, setEntry, List.getD_eq_getElem?_getD, List.set_eq_of_length_le (Nat.not_lt.1 hlt)]
      · exact .inl (entryAt_setEntry_other _ _ hj)
    · exact .inl rfl

theorem freshEntry_evictable (k : EntryKey) : evictable (freshEntry k) = false := rfl

/-- The retries leave a place as it was, or a new entry of one of their keys there, which no entry had (R50). -/
theorem foldl_ensureEntry_at (ks : List EntryKey) (t : Ldt) (i : Nat) :
    entryAt (ks.foldl ensureEntry t) i = entryAt t i ∨
      ∃ k ∈ ks, (∀ j d, entryAt t j = some d → d.key = k → evictable d = true) ∧
        entryAt (ks.foldl ensureEntry t) i = some (freshEntry k) := by
  have key : ∀ (ks : List EntryKey) (u : Ldt), (∀ j d, entryAt t j = some d → evictable d = false → entryAt u j = some d) →
      entryAt (ks.foldl ensureEntry u) i = entryAt u i ∨
        ∃ k ∈ ks, (∀ j d, entryAt t j = some d → d.key = k → evictable d = true) ∧
          entryAt (ks.foldl ensureEntry u) i = some (freshEntry k) := by
    intro ks
    induction ks with
    | nil => exact fun u _ => .inl rfl
    | cons k ks ih =>
      intro u hu
      have hu' : ∀ j d, entryAt t j = some d → evictable d = false → entryAt (ensureEntry u k) j = some d :=
        fun j d hj hd => ensureEntry_keeps k (hu j d hj hd) hd
      rcases ensureEntry_at u k i with hsame | ⟨hnone, hfresh⟩
      · rcases ih _ hu' with h | ⟨q, hq, hqnone, h⟩
        · exact .inl (h.trans hsame)
        · exact .inr ⟨q, by simp [hq], hqnone, h⟩
      · refine .inr ⟨k, by simp, fun j d hj hd => ?_, foldl_ensureEntry_keeps ks hfresh (freshEntry_evictable k)⟩
        by_contra he
        have hfound := findEntry_isSome (hu j d hj (by simpa using he)) hd
        rw [hnone] at hfound
        cases hfound
  exact key ks t fun _ _ h _ => h

theorem foldl_ensureEntry_found {ks : List EntryKey} {t : Ldt} (h : ∀ k ∈ ks, (findEntry t k).isSome = true) :
    ks.foldl ensureEntry t = t := by
  induction ks with
  | nil => rfl
  | cons k ks ih =>
    rw [List.foldl_cons, ensureEntry_found (h k (by simp))]
    exact ih fun k hk => h k (by simp [hk])

/-- What the sweep makes of each entry (R50, R51). -/
theorem sweep_entries (ids : List Identity) (t : Ldt) :
    (∀ i e, entryAt t i = some e → e.inComposition = true → entryAt (sweep ids t) i = some e) ∧
    (∀ i e, entryAt t i = some e → e.inComposition = false → e.lock = .commissioned →
      entryAt (sweep ids t) i = some { e with age := min (e.age + 1) 3 }) ∧
    (∀ i e, t.signatureTrack = none → entryAt t i = some e → e.inComposition = false → e.lock = .opened →
      entryAt (sweep ids t) i = if e.age = 3 then none else some { e with age := min (e.age + 1) 3 }) ∧
    (∀ i e aged, t.signatureTrack ≠ none →
      aged = (if e.age = 3 then none else some { e with age := min (e.age + 1) 3 }) →
      entryAt t i = some e → e.inComposition = false → e.lock = .opened →
      (entryAt (sweep ids t) i = aged ∨
        ∃ k ∈ compositionKeys ids, (∀ j d, entryAt t j = some d → d.key = k → d.inComposition = false) ∧
          entryAt (sweep ids t) i = some (freshEntry k)) ∧
      ((∀ k ∈ compositionKeys ids, ∃ j d, entryAt t j = some d ∧ d.key = k ∧ d.inComposition = true) →
        entryAt (sweep ids t) i = aged)) := by
  have hat : ∀ i e, entryAt t i = some e → entryAt (mapEntries ageEntry t) i = ageEntry e := by
    intro i e h
    rw [entryAt_mapEntries, h]
    rfl
  have hkept : ∀ i e, entryAt (mapEntries ageEntry t) i = some e → evictable e = false →
      entryAt (sweep ids t) i = some e := by
    intro i e h he
    by_cases hs : t.signatureTrack = none
    · rw [sweep_unlooked hs]
      exact h
    · rw [sweep_looked hs]
      exact foldl_ensureEntry_keeps _ h he
  refine ⟨fun i e h hc => ?_, fun i e h hc hl => ?_, fun i e hs h hc hl => ?_, fun i e aged hs haged h hc hl => ⟨?_, fun hall => ?_⟩⟩
  · exact hkept i e ((hat i e h).trans ((ageEntry_cases e).1 hc)) (by simp [evictable, hc])
  · exact hkept i _ ((hat i e h).trans ((ageEntry_cases e).2.1 hc hl)) (by simp [evictable, hl])
  · rw [sweep_unlooked hs, hat i e h, (ageEntry_cases e).2.2 hc hl]
  · rw [sweep_looked hs]
    have haged' : entryAt (mapEntries ageEntry t) i = aged := by rw [hat i e h, (ageEntry_cases e).2.2 hc hl, haged]
    rcases foldl_ensureEntry_at (compositionKeys ids) (mapEntries ageEntry t) i with hsame | ⟨k, hk, hnone, hfresh⟩
    · exact .inl (hsame.trans haged')
    · refine .inr ⟨k, hk, fun j d hj hd => ?_, hfresh⟩
      by_contra hin
      have hin' : d.inComposition = true := by simpa using hin
      have hev := hnone j d ((hat j d hj).trans ((ageEntry_cases d).1 hin')) hd
      simp [evictable, hin'] at hev
  · have hfound : ∀ k ∈ compositionKeys ids, (findEntry (mapEntries ageEntry t) k).isSome = true := by
      intro k hk
      obtain ⟨j, d, hj, hd, hin⟩ := hall k hk
      exact findEntry_isSome ((hat j d hj).trans ((ageEntry_cases d).1 hin)) hd
    rw [sweep_looked hs, foldl_ensureEntry_found hfound]
    exact (hat i e h).trans (by rw [(ageEntry_cases e).2.2 hc hl, haged])

theorem sweep_tracks {ids : List Identity} {t : Ldt} (h : t.signatureTrack ≠ none) :
    (sweep ids t).slotTrack = ids.map (fun id => findEntry (sweep ids t) (.unit id)) ∧
      (sweep ids t).signatureTrack = some (findEntry (sweep ids t) (.remainder (signatureOf ids))) := by
  rw [sweep_looked h]
  exact ⟨rfl, rfl⟩

theorem setLoadsFull_only (b : Bool) (s : State) : OnlyChanges [.ldt, .hlc] s (setLoadsFull b s) := by
  intro b hb
  cases b <;> simp_all [Same, setLoadsFull]

theorem setLoadsFull_ldt_eq (b : Bool) (s : State) : (setLoadsFull b s).ldt = { s.ldt with loadsFull := b } := by
  simp [setLoadsFull]

/-- Settles O39: the count, the entries, the tracking records and LOADS-FULL. -/
theorem theAgingSweep : Obligations.TheAgingSweep := by
  intro t s hh ht
  obtain ⟨now, hnow⟩ : ∃ now, now = max s.now (t + (agingPeriod - s.pwc.agingCount)) := ⟨_, rfl⟩
  obtain ⟨z, hz⟩ : ∃ z : State, z = { s with
    now := now, pwc := { s.pwc with agingCount := 0, agingSince := some now }
    ldt := sweep (identitiesOf s.clc.table) s.ldt } := ⟨_, rfl⟩
  obtain ⟨u, hu⟩ : ∃ u, u = if z.ldt.signatureTrack.isSome then setLoadsFull (loadsFullDue z.ldt) z else z := ⟨_, rfl⟩
  have hwork : exec .agingSweep s = .next (finish u) := by
    refine congrArg Host.Outcome.next ((event_released _ s hh).trans (congrArg finish ?_))
    simp only [ht]
    rw [hu, hz, hnow]
    rfl
  have hzonly : OnlyChanges [.now, .ldt, .pwc] s z := by
    rw [hz]
    intro b hb
    cases b <;> simp_all [Same]
  have huonly : OnlyChanges [.ldt, .hlc] z u := by
    rw [hu]
    split
    · exact setLoadsFull_only _ z
    · exact (OnlyChanges.refl z).mono (by simp)
  have hzldt : z.ldt = sweep (identitiesOf s.clc.table) s.ldt := by rw [hz]
  have huldt : u.ldt = { z.ldt with loadsFull := u.ldt.loadsFull } := by
    rw [hu]
    split
    · rw [setLoadsFull_ldt_eq]
    · rfl
  have hentries : ∀ i, entryAt u.ldt i = entryAt (sweep (identitiesOf s.clc.table) s.ldt) i := by
    intro i
    rw [huldt, hzldt]
    rfl
  have hunow : u.now = now := (show u.now = z.now from huonly .now (by simp)).trans (by rw [hz])
  obtain ⟨hin, hcommissioned, hunlooked, hlooked⟩ := sweep_entries (identitiesOf s.clc.table) s.ldt
  refine ⟨u, hwork, hunow.trans hnow, ?_, fun i e h hc => ?_, fun i e h hc hl => ?_, fun i e hs h hc hl => ?_,
    fun i e keys aged hs hkeys haged h hc hl => ?_, fun hs => ?_, fun hs => ?_, (hzonly.trans huonly).mono (by simp)⟩
  · rw [show u.pwc = z.pwc from huonly .pwc (by simp), hunow, hz]
  · rw [hentries]
    exact hin i e h hc
  · rw [hentries]
    exact hcommissioned i e h hc hl
  · rw [hentries]
    exact hunlooked i e hs h hc hl
  · rw [hentries, hkeys]
    exact hlooked i e aged hs haged h hc hl
  · obtain ⟨hslot, hsig⟩ := sweep_tracks (ids := identitiesOf s.clc.table) hs
    rw [huldt, hzldt]
    refine ⟨?_, hsig⟩
    refine hslot.trans ?_
    simp only [identitiesOf, List.map_map]
    rfl
  · obtain ⟨-, hsig⟩ := sweep_tracks (ids := identitiesOf s.clc.table) hs
    have hz' : z.ldt.signatureTrack.isSome = true := by
      rw [hzldt, hsig]
      rfl
    rw [hu, if_pos hz', setLoadsFull_ldt_eq]
    rfl

end Sys2Proof.Machine
end


/-! ### The end of a store write -/

section

/-! PROOFS. O38. -/

namespace Sys2Proof.Machine

/-! ### The copy (R184) -/

theorem ended_good {α : Type} (bytes : α → List Byte) (good : Bool) (c : Copy α) :
    (c.ended bytes good).good bytes = good := by
  cases good
  · exact spoiled_good bytes c.content
  · simp [Copy.ended, Copy.sealed, Copy.good]

theorem ended_content {α : Type} (bytes : α → List Byte) (good : Bool) (c : Copy α) :
    (c.ended bytes good).content = c.content := by
  cases good <;> rfl

theorem ended_format {α : Type} (bytes : α → List Byte) (good : Bool) (c : Copy α) :
    (c.ended bytes good).format = Config.storeFormat := by
  cases good <;> rfl

theorem closeCopy_good (b : StoreBlock) (good : Bool) (c : Stc) :
    (closeCopy b good c).good b = good ∧ ∀ d, d ≠ b → (closeCopy b good c).good d = c.good d := by
  refine ⟨?_, fun d hd => ?_⟩
  · cases b <;> exact ended_good _ _ _
  · cases b <;> cases d <;> first | exact absurd rfl hd | rfl

theorem closeCopy_content (b : StoreBlock) (good : Bool) (c : Stc) :
    (closeCopy b good c).config.content = c.config.content ∧ (closeCopy b good c).rules.content = c.rules.content ∧
      (closeCopy b good c).loadsA.content = c.loadsA.content ∧
      (closeCopy b good c).loadsB.content = c.loadsB.content := by
  cases b <;> simp [closeCopy, ended_content]

theorem closeCopy_rest (b : StoreBlock) (good : Bool) (c : Stc) :
    (closeCopy b good c).queue = c.queue ∧ (closeCopy b good c).fault = c.fault := by
  cases b <;> exact ⟨rfl, rfl⟩

/-! ### The work of a write's end (R183, R184) -/

/-- The copy ended, its fault told, and no write in progress. -/
def copyClosed (b : StoreBlock) (good : Bool) (s : State) : State :=
  { s with
    stc := { closeCopy b good s.stc with writing := none, fault := s.stc.fault.put b (!good) }
    hlc := { s.hlc with
      changes := if s.stc.fault.get b = !good then s.hlc.changes else addMatter (.storeFault b) s.hlc.changes } }

theorem writeClosed_eq (b : StoreBlock) (good : Bool) (s : State) :
    writeClosed b good s = nextWrite (reportWrite b good (copyClosed b good s)) := by
  obtain ⟨-, hfault⟩ := closeCopy_rest b good s.stc
  rw [writeClosed, setStoreFault_eq]
  simp only [hfault]
  rfl

theorem copyClosed_only (b : StoreBlock) (good : Bool) (s : State) : OnlyChanges [.hlc, .stc] s (copyClosed b good s) := by
  intro c hc
  cases c <;> simp_all [Same, copyClosed]

theorem copyClosed_says (b : StoreBlock) (good : Bool) (s : State) : Says [] s.hlc (copyClosed b good s).hlc :=
  setChanges_says _ _

theorem reportWrite_none {b : StoreBlock} {good : Bool} {s : State}
    (h : ∀ w, s.svc.write = some w → w.begun = false ∨ w.block ≠ b) : reportWrite b good s = s := by
  unfold reportWrite
  split
  · rename_i w hw
    refine if_neg ?_
    rcases h w hw with h | h <;> simp [h]
  · rfl

/-- The Service Controller after its own write: IDLE, and STORE kept where the read back failed (R160). -/
def serviceWritten (good : Bool) (v : Svc) : Svc :=
  { v with state := .idle, write := none, sticky := { v.sticky with store := v.sticky.store || !good } }

theorem reportWrite_own {b : StoreBlock} {good : Bool} {s : State} {w : ServiceWrite} (hw : s.svc.write = some w)
    (hb : w.block = b) (hbegun : w.begun = true) :
    reportWrite b good s =
      send (.serviceDone w.op w.target (serviceResult w.aborted good) (if w.aborted then some good else none))
        { s with svc := serviceWritten good s.svc } := by
  simp only [reportWrite, hw, hb, hbegun, decide_true, Bool.and_self, if_true, endServiceWrite]
  cases good
  · simp [serviceWritten, setSticky, stickWith]
  · simp [serviceWritten]

theorem reportWrite_only (b : StoreBlock) (good : Bool) (s : State) : OnlyChanges [.svc, .hlc] s (reportWrite b good s) := by
  have hown : ∀ (r : TxRecord) (v : Svc), OnlyChanges [.svc, .hlc] s (send r { s with svc := v }) := by
    intro r v c hc
    cases c <;> simp_all [Same]
  unfold reportWrite
  split
  · rename_i w hw
    split
    · rename_i h
      rw [Bool.and_eq_true, decide_eq_true_eq] at h
      obtain ⟨hb, hbegun⟩ := h
      have hrep := reportWrite_own (good := good) hw hb hbegun
      simp only [reportWrite, hw, hb, hbegun, decide_true, Bool.and_self, if_true] at hrep
      rw [hrep]
      exact hown _ _
    · exact (OnlyChanges.refl s).mono (by simp)
  · exact (OnlyChanges.refl s).mono (by simp)

theorem nextWrite_stc (s : State) :
    (nextWrite s).stc.writing = (if s.stc.queue = [] then s.stc.writing else s.stc.queue.head?) ∧
      (nextWrite s).stc.queue = s.stc.queue.tail ∧ (nextWrite s).stc.fault = s.stc.fault := by
  unfold nextWrite
  cases h : s.stc.queue with
  | nil => simp [h]
  | cons d q =>
    obtain ⟨hw, hq⟩ := beginWrite_stc d { s with stc := { s.stc with queue := q } }
    exact ⟨hw, hq, by cases d <;> rfl⟩

theorem nextWrite_only (s : State) : OnlyChanges [.svc, .stc] s (nextWrite s) := by
  rw [nextWrite_eq]
  intro b hb
  cases b <;> simp_all [Same]

/-- The store, and what else a write's end leaves, but for an entry that waits for it. -/
theorem writeClosed_leaves (b : StoreBlock) (good : Bool) (s : State) :
    (writeClosed b good s).stc.writing = s.stc.queue.head? ∧
      (writeClosed b good s).stc.queue = s.stc.queue.tail ∧
      (writeClosed b good s).stc.fault = s.stc.fault.put b (!good) ∧
      OnlyChanges [.svc, .hlc, .stc] s (writeClosed b good s) := by
  obtain ⟨hqueue, -⟩ := closeCopy_rest b good s.stc
  have hstc : (reportWrite b good (copyClosed b good s)).stc = (copyClosed b good s).stc :=
    reportWrite_only b good (copyClosed b good s) .stc (by simp)
  have hcq : (copyClosed b good s).stc.queue = s.stc.queue := hqueue
  have hcw : (copyClosed b good s).stc.writing = none := rfl
  obtain ⟨hw, hq, hf⟩ := nextWrite_stc (reportWrite b good (copyClosed b good s))
  rw [hstc, hcq, hcw] at hw
  rw [hstc, hcq] at hq
  rw [hstc] at hf
  rw [writeClosed_eq]
  refine ⟨?_, hq, hf, ?_⟩
  · rw [hw]
    cases s.stc.queue <;> rfl
  · exact (((copyClosed_only b good s).trans (reportWrite_only b good _)).trans (nextWrite_only _)).mono (by simp)

theorem exec_writeEnd {s : State} {b : StoreBlock} (good : Bool) (hh : s.pwc.held = false)
    (hw : s.stc.writing = some b) : exec (.storeWriteEnd good) s = .next (finish (writeEnded b good s)) := by
  refine congrArg Host.Outcome.next ((event_released _ s hh).trans (congrArg finish ?_))
  simp only [hw]

/-! ### The end of a standby entry (R189) -/

theorem any_isLoads (bs : List StoreBlock) : bs.any isLoads = true ↔ .loadsA ∈ bs ∨ .loadsB ∈ bs := by
  simp only [List.any_eq_true, isLoads, Bool.or_eq_true, decide_eq_true_eq]
  constructor
  · rintro ⟨d, hd, rfl | rfl⟩
    · exact .inl hd
    · exact .inr hd
  · rintro (h | h)
    · exact ⟨_, h, .inl rfl⟩
    · exact ⟨_, h, .inr rfl⟩

/-- An entry is done when no LOADS write is left of the queue that stood when the write ended. -/
theorem entryDone_iff {s t : State} (hw : t.stc.writing = s.stc.queue.head?) (hq : t.stc.queue = s.stc.queue.tail) :
    entryDone t = true ↔ .loadsA ∉ s.stc.queue ∧ .loadsB ∉ s.stc.queue := by
  have h : entryDone t = !s.stc.queue.any isLoads := by
    rw [entryDone, hw, hq]
    cases s.stc.queue with
    | nil => rfl
    | cons d q => cases hd : isLoads d <;> cases hq : q.any isLoads <;> simp [hd, hq]
  rw [h, Bool.not_eq_true', ← not_or, ← any_isLoads, Bool.not_eq_true]

theorem agingNow_eq (s : State) :
    agingNow s = s.pwc.agingCount + s.pwc.agingSince.elim 0 (fun m => s.now - m) := by
  unfold agingNow
  cases s.pwc.agingSince <;> rfl

theorem parkCircuit_facts (now : Nat) (w : FunctionWord) (c : Circuit) (x : CircuitSense) :
    (parkCircuit now w c x).window = none ∧ (parkCircuit now w c x).settleTimer = none ∧
      (parkCircuit now w c x).zero = x.zero ∧
      (w.getLsbD c.val = false → (parkCircuit now w c x).phase = .parkedOff ∧ (parkCircuit now w c x).settleEnd = none) ∧
      (w.getLsbD c.val = true → (parkCircuit now w c x).phase = .parkedOn ∧
        (x.phase ≠ .onSettled → (parkCircuit now w c x).settleEnd = some now) ∧
        (∀ e, x.phase = .onSettled → x.settleEnd = some e → (parkCircuit now w c x).settleEnd = some e)) := by
  unfold parkCircuit itemOn
  cases hw : w.getLsbD c.val
  · exact ⟨rfl, rfl, rfl, fun _ => ⟨rfl, rfl⟩, by simp⟩
  · refine ⟨rfl, rfl, rfl, by simp, fun _ => ⟨rfl, fun h => ?_, fun e h he => ?_⟩⟩
    · simp [enterPhase, h]
    · simp [enterPhase, h, he]

theorem abortCensus_leaves (s : State) :
    (abortCensus s).clc.census = none ∧ (abortCensus s).clc.table = s.clc.table := by
  unfold abortCensus
  split
  · rename_i h
    exact ⟨h, rfl⟩
  · refine ⟨rfl, ?_⟩
    unfold abandonLine
    simp only [setClc_clc]

theorem cutCycle_leaves (k : Clc) : (cutCycle k).census = k.census ∧ (cutCycle k).table = k.table := by
  unfold cutCycle
  split <;> exact ⟨rfl, rfl⟩

theorem parkChain_leaves (s : State) :
    (parkChain s).clc.census = s.clc.census ∧ (parkChain s).clc.table = s.clc.table ∧
      (parkChain s).clc.standbyCycle = s.now + firstStandbyCycle := by
  obtain ⟨hcensus, htable⟩ := cutCycle_leaves s.clc
  unfold parkChain
  simp only
  split
  · exact ⟨rfl, rfl, rfl⟩
  · exact ⟨hcensus, htable, rfl⟩

theorem reportWrite_word (b : StoreBlock) (good : Bool) (s : State) :
    (reportWrite b good s).hlc.word = s.hlc.word := by
  unfold reportWrite
  split
  · split
    · cases good <;> simp [endServiceWrite, setSticky]
    · rfl
  · rfl

theorem writeClosed_word (b : StoreBlock) (good : Bool) (s : State) : (writeClosed b good s).hlc.word = s.hlc.word := by
  rw [writeClosed_eq, show (nextWrite (reportWrite b good (copyClosed b good s))).hlc =
    (reportWrite b good (copyClosed b good s)).hlc from nextWrite_only _ .hlc (by simp), reportWrite_word]
  rfl

/-- What the end of an entry leaves: every block parked, with the store going on (R14, R189, R191). -/
structure EnteredFrom (v u : State) : Prop where
  stc : u.stc = v.stc
  pwc : u.pwc = { v.pwc with
    power := .standby, standbyEntry := false, lowScans := 0, agingCount := min (agingNow v) (agingPeriod - 1)
    agingSince := none }
  silence : u.hlc.silence = none
  reconcile : u.dsr.reconcile = none
  list : u.dsr.list = v.dsr.list.map (pauseLinger v.now)
  census : u.clc.census = none
  table : u.clc.table = v.clc.table
  standbyCycle : u.clc.standbyCycle = v.now + firstStandbyCycle
  standbyScan : u.sfe.standbyScan = v.now + standbyScanPeriod
  supplyWindow : u.sfe.supplyWindow = none
  watches : u.jge.watches = v.jge.watches.mapAt fun _ => disarmWatch
  circuits : u.sfe.circuits = v.sfe.circuits.mapAt (parkCircuit v.now v.hlc.word)

theorem parkSense_sfe (s : State) : (parkSense s).sfe.circuits = s.sfe.circuits.mapAt (parkCircuit s.now s.hlc.word) ∧
    (parkSense s).sfe.standbyScan = s.now + standbyScanPeriod ∧ (parkSense s).sfe.supplyWindow = none :=
  ⟨rfl, rfl, rfl⟩

theorem stopAging_pwc (s : State) : (stopAging s).pwc =
    { s.pwc with agingCount := min (agingNow s) (agingPeriod - 1), agingSince := none } := rfl

theorem agingNow_congr {s t : State} (hn : t.now = s.now) (hc : t.pwc.agingCount = s.pwc.agingCount)
    (hs : t.pwc.agingSince = s.pwc.agingSince) : agingNow t = agingNow s := by
  unfold agingNow
  rw [hn, hc, hs]

theorem enterStandby_from (v : State) : EnteredFrom v (enterStandby v) := by
  have habort := abortCensus_eq v
  obtain ⟨hcensus, htable⟩ := abortCensus_leaves v
  obtain ⟨w, hw⟩ : ∃ w, w = abortCensus v := ⟨_, rfl⟩
  rw [← hw] at habort hcensus htable
  have hnow : w.now = v.now := by rw [habort]
  have hpwc : w.pwc = v.pwc := by rw [habort]
  have hword : w.hlc.word = v.hlc.word := by rw [habort]
  have hsfe : w.sfe = v.sfe := by rw [habort]
  have hdsr : w.dsr = v.dsr := by rw [habort]
  have hjge : w.jge = v.jge := by rw [habort]
  have hstc : w.stc = v.stc := by rw [habort]
  obtain ⟨x, hx⟩ : ∃ x, x = setStandbyEntry false (setPower .standby w) := ⟨_, rfl⟩
  have hxnow : x.now = w.now := by rw [hx]; rfl
  have hxword : x.hlc.word = w.hlc.word := by rw [hx]; rfl
  have hxsfe : x.sfe = w.sfe := by rw [hx]; rfl
  have hxclc : x.clc = w.clc := by rw [hx]; rfl
  have hxpwc : x.pwc = { w.pwc with power := .standby, standbyEntry := false } := by rw [hx]; rfl
  obtain ⟨y, hy⟩ : ∃ y, y = disarmWatches (parkSense x) := ⟨_, rfl⟩
  have hynow : y.now = x.now := by rw [hy]; rfl
  have hyclc : y.clc = x.clc := by rw [hy]; rfl
  obtain ⟨hcircuits, hscan, hwindow⟩ := parkSense_sfe x
  obtain ⟨hpc, hpt, hps⟩ := parkChain_leaves y
  obtain ⟨p, hp⟩ : ∃ p : State, p = { parkDisplay (parkChain y) with
      hlc := { (parkDisplay (parkChain y)).hlc with silence := none }
      pwc := { (parkDisplay (parkChain y)).pwc with lowScans := 0 } } := ⟨_, rfl⟩
  have hpnow : p.now = x.now := by rw [hp, ← hynow]; rfl
  have hppwc : p.pwc = { x.pwc with lowScans := 0 } := by rw [hp, hy]; rfl
  have hpclc : p.clc = (parkChain y).clc := by rw [hp]; rfl
  have hpsfe : p.sfe = (parkSense x).sfe := by rw [hp, hy]; rfl
  have henter : enterStandby v = stopAging p := by rw [hp, hy, hx, hw]; rfl
  have haging : agingNow p = agingNow v :=
    agingNow_congr (by rw [hpnow, hxnow, hnow]) (by rw [hppwc, hxpwc, hpwc]) (by rw [hppwc, hxpwc, hpwc])
  rw [henter]
  exact {
    stc := by rw [← hstc, show (stopAging p).stc = p.stc from rfl, hp, hy, hx]; rfl
    pwc := by rw [stopAging_pwc, haging, hppwc, hxpwc, hpwc]
    silence := by rw [hp]; rfl
    reconcile := by rw [hp]; rfl
    list := by
      rw [← hdsr, ← hnow, ← hxnow, show (stopAging p).dsr = p.dsr from rfl, hp, hy, hx]
      rfl
    census := by rw [show (stopAging p).clc = p.clc from rfl, hpclc, hpc, hyclc, hxclc, hcensus]
    table := by rw [show (stopAging p).clc = p.clc from rfl, hpclc, hpt, hyclc, hxclc, htable]
    standbyCycle := by rw [show (stopAging p).clc = p.clc from rfl, hpclc, hps, hynow, hxnow, hnow]
    standbyScan := by rw [show (stopAging p).sfe = p.sfe from rfl, hpsfe, hscan, hxnow, hnow]
    supplyWindow := by rw [show (stopAging p).sfe = p.sfe from rfl, hpsfe, hwindow]
    watches := by
      rw [← hjge, show (stopAging p).jge = p.jge from rfl, hp, hy, hx]
      rfl
    circuits := by
      rw [show (stopAging p).sfe = p.sfe from rfl, hpsfe, hcircuits, hxnow, hnow, hxword, hword, hxsfe, hsfe] }

theorem agingPeriod_pred : agingPeriod - 1 = 3599999999 := by
  simp [agingPeriod, ms]

/-- Settles O38: the copy, the write that ends alone, the next write, a service write, and the last of an entry. -/
theorem theEndOfAStoreWrite : Obligations.TheEndOfAStoreWrite := by
  intro good b s hh hwriting
  obtain ⟨hgood, hothers⟩ := closeCopy_good b good s.stc
  obtain ⟨hconfig, hrules, hloadsA, hloadsB⟩ := closeCopy_content b good s.stc
  obtain ⟨hw, hq, hf, honly⟩ := writeClosed_leaves b good s
  have hexec := exec_writeEnd good hh hwriting
  have hpwc : (writeClosed b good s).pwc = s.pwc := honly .pwc (by simp)
  have hplain : s.pwc.standbyEntry = false ∨ .loadsA ∈ s.stc.queue ∨ .loadsB ∈ s.stc.queue →
      writeEnded b good s = writeClosed b good s := by
    intro h
    rw [writeEnded_eq]
    refine if_neg ?_
    rw [Bool.and_eq_true, hpwc, entryDone_iff hw hq]
    rintro ⟨he, ha, hb⟩
    rcases h with h | h | h
    · rw [h] at he
      cases he
    · exact ha h
    · exact hb h
  refine ⟨⟨hgood, hothers, hconfig, hrules, hloadsA, hloadsB, ?_⟩, fun he hqueue hno => ?_, fun d q he hqueue => ?_,
    fun w he hsvc hblock hbegun => ?_, fun he ha hb => ?_⟩
  · rintro rfl
    exact ended_format _ _ _
  · rw [hexec, hplain (.inl he), writeClosed_eq, reportWrite_none (s := copyClosed b good s) hno]
    have hcq : (copyClosed b good s).stc.queue = [] := (closeCopy_rest b good s.stc).1.trans hqueue
    simp only [nextWrite, hcq]
    rfl
  · refine ⟨_, hexec.trans (congrArg (Host.Outcome.next ∘ finish) (hplain (he.imp_right id))), ?_, ?_, hf, hpwc, honly⟩
    · rw [hw, hqueue]
      rfl
    · rw [hq, hqueue]
      rfl
  · have hown := reportWrite_own (b := b) (good := good) (s := copyClosed b good s) hsvc hblock hbegun
    have hnext := nextWrite_only (reportWrite b good (copyClosed b good s))
    have heq := nextWrite_eq (reportWrite b good (copyClosed b good s))
    refine ⟨_, _, hexec.trans (congrArg (Host.Outcome.next ∘ finish) (hplain (.inl he))), rfl, ?_, ?_⟩
    · rw [writeClosed_eq, show (nextWrite (reportWrite b good (copyClosed b good s))).hlc =
        (reportWrite b good (copyClosed b good s)).hlc from hnext .hlc (by simp), hown]
      have hsays := (copyClosed_says b good s).trans
        (send_says (r := .serviceDone w.op w.target (serviceResult w.aborted good) (if w.aborted then some good else none))
          { copyClosed b good s with svc := serviceWritten good (copyClosed b good s).svc } rfl rfl)
      exact hsays.replies
    · have hwrite : (nextWrite (reportWrite b good (copyClosed b good s))).svc.write = none := by
        rw [hown]
        unfold nextWrite
        split <;> rfl
      rw [writeClosed_eq, heq, hwrite, hown]
      rfl
  · have hentered : writeEnded b good s = enterStandby (writeClosed b good s) := by
      rw [writeEnded_eq]
      refine if_pos ?_
      rw [Bool.and_eq_true, hpwc, entryDone_iff hw hq]
      exact ⟨he, ha, hb⟩
    have hword := writeClosed_word b good s
    obtain ⟨v, hv⟩ : ∃ v, v = writeClosed b good s := ⟨_, rfl⟩
    rw [← hv] at hw hq hf honly hpwc hentered hword
    have hnow : v.now = s.now := honly .now (by simp)
    have hclc : v.clc = s.clc := honly .clc (by simp)
    have hdsr : v.dsr = s.dsr := honly .dsr (by simp)
    have hjge : v.jge = s.jge := honly .jge (by simp)
    have hsfe : v.sfe = s.sfe := honly .sfe (by simp)
    have hu := enterStandby_from v
    have haging : agingNow v = s.pwc.agingCount + s.pwc.agingSince.elim 0 (fun m => s.now - m) := by
      rw [agingNow_eq, hpwc, hnow]
    refine ⟨_, _, hexec.trans (congrArg (Host.Outcome.next ∘ finish) hentered), rfl, ?_, ?_, ?_, ?_, hu.silence,
      hu.reconcile, ?_, hu.census, ?_, ?_, ?_, hu.supplyWindow, fun c => ?_⟩
    · rw [hu.pwc, haging, agingPeriod_pred, hpwc]
    · rw [hu.stc]
      exact hw
    · rw [hu.stc]
      exact hq
    · rw [hu.stc]
      exact hf
    · rw [hu.list, hdsr, hnow]
    · rw [hu.table, hclc]
    · rw [hu.standbyCycle, hnow]
    · rw [hu.standbyScan, hnow]
    · rw [hu.watches, hu.circuits, PerCircuit.get_mapAt, PerCircuit.get_mapAt, hjge, hsfe, hnow, hword]
      exact ⟨rfl, parkCircuit_facts s.now s.hlc.word c (s.sfe.circuits.get c)⟩

end Sys2Proof.Machine
end


/-! ### Rules, roles, sets and the action they choose -/

section

/-! PROOFS. O55. -/

namespace Sys2Proof.Machine

/-- A masked difference is empty when every item of the mask agrees. -/
theorem masked_eq_zero_iff (w v m : FunctionWord) :
    (w ^^^ v) &&& m = 0 ↔ ∀ n, n < 16 → m.getLsbD n = true → w.getLsbD n = v.getLsbD n := by
  constructor
  · intro h n hn hm
    have hbit := congrArg (fun x : FunctionWord => x.getLsbD n) h
    simp only [BitVec.getLsbD_and, BitVec.getLsbD_xor, hm, Bool.and_true] at hbit
    rw [show (0 : FunctionWord).getLsbD n = false from BitVec.getLsbD_zero] at hbit
    simpa using hbit
  · intro h
    refine BitVec.eq_of_getLsbD_eq fun n hn => ?_
    rw [BitVec.getLsbD_and, BitVec.getLsbD_xor, show (0 : FunctionWord).getLsbD n = false from BitVec.getLsbD_zero]
    cases hm : m.getLsbD n
    · exact Bool.and_false _
    · rw [h n hn hm]
      simp

theorem ruleMatches_equal {r : Rule} (w : FunctionWord) (h : r.sense = .equal) :
    ruleMatches r w = true ↔ ∀ n, n < 16 → r.mask.getLsbD n = true → w.getLsbD n = r.value.getLsbD n := by
  simp only [ruleMatches, h, decide_eq_true_eq]
  exact masked_eq_zero_iff w r.value r.mask

theorem ruleMatches_different {r : Rule} (w : FunctionWord) (h : r.sense = .different) :
    ruleMatches r w = true ↔ ∃ n, n < 16 ∧ r.mask.getLsbD n = true ∧ w.getLsbD n ≠ r.value.getLsbD n := by
  simp only [ruleMatches, h, decide_eq_true_eq, ne_eq, masked_eq_zero_iff w r.value r.mask]
  push Not
  rfl

theorem ruleAt_of_some {rules : List Rule} {n : Nat} {r : Rule} (h : rules[n]? = some r) : ruleAt rules n = r := by
  simp [ruleAt, List.getD_eq_getElem?_getD, h]

theorem roleOf_cases {rules : List Rule} {n h : Nat} {r head : Rule} (hr : rules[n]? = some r) (hh : h = r.head)
    (hhead : rules[h]? = some head) :
    (h = n → roleOf rules n = .head) ∧
      (h ≠ n → head.head = h → head.members.getLsbD n = true → roleOf rules n = .member h) ∧
      (h ≠ n → head.head ≠ h ∨ head.members.getLsbD n = false → roleOf rules n = .orphan) := by
  subst hh
  simp only [roleOf, isHead, ruleAt_of_some hr, ruleAt_of_some hhead]
  refine ⟨fun h => if_pos h, fun h hself hmem => ?_, fun h hno => ?_⟩
  · rw [if_neg h]
    exact if_pos (by simp [hself, hmem])
  · rw [if_neg h]
    refine if_neg ?_
    rcases hno with hno | hno <;> simp [hno]

theorem mem_namedMembers {rules : List Rule} (hl : rules.length = 32) {h m : Nat} {head : Rule}
    (hhead : rules[h]? = some head) :
    m ∈ namedMembers rules h ↔ (∃ r, rules[m]? = some r) ∧ head.members.getLsbD m = true ∧ m ≠ h := by
  have hm : m < 32 ↔ ∃ r, rules[m]? = some r := by
    rw [← hl, ← Option.isSome_iff_exists]
    simp
  simp [namedMembers, ruleAt_of_some hhead, hm]

theorem setMatches_iff {rules : List Rule} {w : FunctionWord} (hl : rules.length = 32) {h : Nat} {c : Circuit}
    {head : Rule} (hhead : rules[h]? = some head) :
    setMatches rules w h c = true ↔
      head.head = h ∧ head.circuits.getLsbD c.val = true ∧ head.enabled = true ∧ ruleMatches head w = true ∧
        ∀ m r, rules[m]? = some r → head.members.getLsbD m = true → m ≠ h →
          r.enabled = true ∧ r.head = h ∧ ruleMatches r w = true := by
  have hmembers : ((breakers rules h).isEmpty = true ∧
      (namedMembers rules h).all (fun m => ruleMatches (ruleAt rules m) w) = true) ↔
      ∀ m r, rules[m]? = some r → head.members.getLsbD m = true → m ≠ h →
        r.enabled = true ∧ r.head = h ∧ ruleMatches r w = true := by
    rw [breakers, List.isEmpty_iff, List.filter_eq_nil_iff, List.all_eq_true]
    constructor
    · rintro ⟨hbreaks, hall⟩ m r hr hmem hne
      have hnamed := (mem_namedMembers hl hhead).2 ⟨⟨r, hr⟩, hmem, hne⟩
      have hb := hbreaks m hnamed
      have ha := hall m hnamed
      simp only [breaks, ruleAt_of_some hr, Bool.or_eq_true, not_or, Bool.not_eq_true', Bool.not_eq_false,
        bne_iff_ne, not_not] at hb
      rw [ruleAt_of_some hr] at ha
      exact ⟨hb.1, hb.2, ha⟩
    · intro hall
      refine ⟨fun m hm => ?_, fun m hm => ?_⟩ <;>
        obtain ⟨⟨r, hr⟩, hmem, hne⟩ := (mem_namedMembers hl hhead).1 hm <;>
        obtain ⟨henabled, hself, hmatch⟩ := hall m r hr hmem hne
      · simp [breaks, ruleAt_of_some hr, henabled, hself]
      · rw [ruleAt_of_some hr]
        exact hmatch
  simp only [setMatches, isHead, ruleAt_of_some hhead, Bool.and_eq_true, decide_eq_true_eq, ← hmembers]
  tauto

theorem mem_matchingHeads {rules : List Rule} {w : FunctionWord} (hl : rules.length = 32) {c : Circuit}
    {acts : Action → Bool} {h : Nat} :
    h ∈ matchingHeads rules w c acts ↔ ∃ r, rules[h]? = some r ∧ acts r.action = true ∧ setMatches rules w h c = true := by
  simp only [matchingHeads, List.mem_filter, List.mem_range, Bool.and_eq_true]
  constructor
  · rintro ⟨hlt, hact, hset⟩
    have hr : rules[h]? = some rules[h] := List.getElem?_eq_getElem (by omega)
    rw [ruleAt_of_some hr] at hact
    exact ⟨_, hr, hact, hset⟩
  · rintro ⟨r, hr, hact, hset⟩
    have hlt := (List.getElem?_eq_some_iff.1 hr).1
    rw [ruleAt_of_some hr]
    exact ⟨by omega, hact, hset⟩

theorem holdMatches_iff {rules : List Rule} {w : FunctionWord} (hl : rules.length = 32) (c : Circuit) :
    holdMatches rules w c = true ↔ ∃ h r, rules[h]? = some r ∧ r.action = .hold ∧ setMatches rules w h c = true := by
  have hmem := fun h => mem_matchingHeads (w := w) hl (c := c) (acts := (· = .hold)) (h := h)
  simp only [decide_eq_true_eq] at hmem
  rw [holdMatches, Bool.not_eq_true', ← Bool.not_eq_true, List.isEmpty_iff]
  constructor
  · intro h
    obtain ⟨n, hn⟩ := List.exists_mem_of_ne_nil _ h
    exact ⟨n, (hmem n).1 hn⟩
  · rintro ⟨n, hn⟩ h
    have hin := (hmem n).2 hn
    rw [h] at hin
    cases hin

/-- The heads stand in ascending order. -/
theorem matchingHeads_sorted (rules : List Rule) (w : FunctionWord) (c : Circuit) (acts : Action → Bool) :
    (matchingHeads rules w c acts).Pairwise (· < ·) :=
  List.pairwise_lt_range.filter _

/-- Without a HOLD set, the lowest matching head of JUDGE or WIDEN chooses (R69). -/
theorem chooseAction_lowest {rules : List Rule} {w : FunctionWord} (hl : rules.length = 32) {c : Circuit}
    (hno : holdMatches rules w c = false) {h : Nat} {r : Rule} (hr : rules[h]? = some r)
    (hset : setMatches rules w h c = true) (hact : r.action = .judge ∨ r.action = .widen)
    (hlow : ∀ g q, g < h → rules[g]? = some q → setMatches rules w g c = true →
      q.action ≠ .judge ∧ q.action ≠ .widen) :
    chooseAction rules w c = if r.action = .widen then (.widen, r.param) else (.judge, 1) := by
  have hmem : h ∈ matchingHeads rules w c (fun a => a = .judge || a = .widen) :=
    (mem_matchingHeads hl).2 ⟨r, hr, by simpa using hact, hset⟩
  cases hheads : matchingHeads rules w c (fun a => a = .judge || a = .widen) with
  | nil =>
    rw [hheads] at hmem
    cases hmem
  | cons g gs =>
    have hsorted := matchingHeads_sorted rules w c (fun a => a = .judge || a = .widen)
    rw [hheads] at hmem hsorted
    have hgh : g = h := by
      rcases List.mem_cons.1 hmem with e | hin
      · exact e.symm
      · have hlt := (List.pairwise_cons.1 hsorted).1 h hin
        obtain ⟨q, hq, hqact, hqset⟩ := (mem_matchingHeads (w := w) (c := c)
          (acts := fun a => a = .judge || a = .widen) hl).1 (hheads ▸ List.mem_cons_self)
        obtain ⟨hj, hw⟩ := hlow g q hlt hq hqset
        simp [hj, hw] at hqact
    subst hgh
    simp only [chooseAction, hno, hheads, ruleAt_of_some hr]
    simp

theorem chooseAction_none {rules : List Rule} {w : FunctionWord} (hl : rules.length = 32) {c : Circuit}
    (hno : holdMatches rules w c = false)
    (hnone : ∀ h r, rules[h]? = some r → setMatches rules w h c = true → r.action ≠ .judge ∧ r.action ≠ .widen) :
    chooseAction rules w c = (.judge, 1) := by
  have hheads : matchingHeads rules w c (fun a => a = .judge || a = .widen) = [] := by
    rw [List.eq_nil_iff_forall_not_mem]
    intro h hmem
    obtain ⟨r, hr, hact, hset⟩ := (mem_matchingHeads hl).1 hmem
    obtain ⟨hj, hw⟩ := hnone h r hr hset
    simp [hj, hw] at hact
  simp only [chooseAction, hno, hheads]
  simp

/-- Settles O55: one rule, its role, its set, and the action chosen. -/
theorem aRuleMatchesItsItems : Obligations.ARuleMatchesItsItems := by
  refine ⟨fun r w => ⟨ruleMatches_equal w, ruleMatches_different w, fun hm => ⟨fun hs => ?_, fun hs => ?_⟩, fun _ => rfl⟩,
    fun rules w hl => ⟨fun n h r head => roleOf_cases, fun h c head hhead => setMatches_iff hl hhead, fun c => ⟨fun hhold => ?_,
      fun hnohold => ?_⟩⟩⟩
  · rw [ruleMatches_equal w hs, hm]
    simp
  · rw [← Bool.not_eq_true, ruleMatches_different w hs, hm]
    simp
  · exact if_pos ((holdMatches_iff hl c).2 hhold)
  · have hno : holdMatches rules w c = false := by
      rw [← Bool.not_eq_true, holdMatches_iff hl]
      rintro ⟨h, r, hr, ha, hset⟩
      rw [hnohold h r hr ha] at hset
      cases hset
    exact ⟨fun h r hr hset hact hlow => chooseAction_lowest hl hno hr hset hact hlow, chooseAction_none hl hno⟩

end Sys2Proof.Machine
end


/-! ### The pool's outcome and the judgement it is part of -/

section

/-! PROOFS. O57. -/

namespace Sys2Proof.Machine

/-! ### The pool outcome (R95) -/

theorem poolKind_eq (l : Levels) (r : Int) (e : Nat) :
    poolKind l r e =
      if r ≤ (l.zero : Int) ∧ l.deficit e ≤ e then some .unitLost
      else if (l.deficit e : Int) ≤ (e : Int) - max r 0 then some .outage
      else if (l.excess e : Int) ≤ max r 0 - (e : Int) then some .overload
      else none := rfl

theorem poolKind_unitLost {l : Levels} {r : Int} {e : Nat} (h : poolKind l r e = some .unitLost) : l.zero ≤ e := by
  rw [poolKind_eq] at h
  split at h
  · rename_i hlost
    exact (l.zero_le_deficit e).trans hlost.2
  · split at h
    · cases h
    · split at h <;> cases h

/-- A pool of which nothing is expected is at most OVERLOAD. -/
theorem poolKind_nothing {l : Levels} (r : Int) (h : 0 < l.zero) :
    poolKind l r 0 = some .overload ∨ poolKind l r 0 = none := by
  rw [poolKind_eq, l.deficit_zero, if_neg (by omega), if_neg (by omega)]
  split
  · exact .inl rfl
  · exact .inr rfl

/-! ### The pool's expectation and subject (R94, R96) -/

/-- What a member brings to the expectation. -/
theorem memberShare_eq (volts : Nat) (t : Option Tracked) :
    memberShare volts t =
      match t with
      | some k => if k.base.state = .known then adjusted volts k.base else 0
      | none => 0 := by
  cases t with
  | none => rfl
  | some k => by_cases h : k.base.state = .known <;> simp [memberShare, knownBase, Option.filter, h]

theorem knownBase_isSome (t : Option Tracked) :
    (knownBase t).isSome = true ↔ t.any (fun t => t.base.state = .known) = true := by
  cases t with
  | none => simp [knownBase]
  | some k => by_cases h : k.base.state = .known <;> simp [knownBase, h]

theorem any_known_iff (t : Option Tracked) :
    t.any (fun t => t.base.state = .known) = true ↔ ¬t.all (fun t => t.base.state != .known) = true := by
  cases t with
  | none => simp
  | some k => by_cases h : k.base.state = .known <;> simp [h]

theorem poolKnown_iff (views : List SlotView) (rem : Option Tracked) :
    poolKnown views rem = true ↔ rem.any (fun t => t.base.state = .known) = true ∧
      ∀ v ∈ poolSlots views, v.track.any (fun t => t.base.state = .known) = true := by
  simp only [poolKnown, Bool.and_eq_true, List.all_eq_true, knownBase_isSome]

theorem poolKnown_false {views : List SlotView} {rem : Option Tracked}
    (h : rem.all (fun t => t.base.state != .known) = true ∨
      ∃ v ∈ poolSlots views, v.track.all (fun t => t.base.state != .known) = true) :
    poolKnown views rem = false := by
  rw [← Bool.not_eq_true, poolKnown_iff]
  rintro ⟨hrem, hall⟩
  rcases h with h | ⟨v, hv, h⟩
  · exact (any_known_iff rem).1 hrem h
  · exact (any_known_iff v.track).1 (hall v hv) h

theorem poolSlots_eq (views : List SlotView) :
    poolSlots views = views.filter fun v => v.state != .present || v.report.isNone := by
  unfold poolSlots
  refine List.filter_congr fun v _ => ?_
  cases hr : v.report <;> cases hs : v.state <;> simp [SlotView.reported, hs, hr]

theorem poolSubject_one {volts : Nat} {views : List SlotView} {rem : Option Tracked} {v : SlotView}
    (h : (poolSlots views).filter (fun v => memberShare volts v.track != 0) = [v]) (hr : memberShare volts rem = 0) :
    poolSubject volts views rem = .slot v.slot := by
  simp only [poolSubject, h, if_pos hr]

theorem poolSubject_remainder {volts : Nat} {views : List SlotView} {rem : Option Tracked}
    (h : ((poolSlots views).filter fun v => memberShare volts v.track != 0).length ≠ 1 ∨ memberShare volts rem ≠ 0) :
    poolSubject volts views rem = .remainder := by
  unfold poolSubject
  split
  · rename_i v hv
    rw [hv] at h
    exact if_neg (by simpa using h)
  · rfl

/-! ### The judgement, by the residual (R85, R93, R99) -/

/-- The outcomes that stand before the pool's. -/
def beforePool (l : Levels) (o : Offer) (views : List SlotView) (significant : Bool) : List Verdict :=
  nodeVerdicts l o.circuit o.volts views ++
    [disagreeVerdict o.circuit significant (reportedSum o.circuit views) (measured o)]

/-- The residual of an offer. -/
def residualOf (o : Offer) (views : List SlotView) : Int := (measured o : Int) - (reportedSum o.circuit views : Int)

theorem judgement_residual (l : Levels) (o : Offer) (views : List SlotView) (rem : Option Tracked) :
    (judgement l o views rem).residual = residualOf o views := by
  unfold judgement
  simp only
  split
  · rfl
  · split <;> rfl

theorem judgement_disagree {l : Levels} {o : Offer} {views : List SlotView} (rem : Option Tracked)
    (h : residualOf o views < -(l.zero : Int)) :
    judgement l o views rem =
      { residual := residualOf o views, batch := beforePool l o views true
        expectation := if poolKnown views rem then some (poolExpectation o.volts views rem) else none
        pool := .preempted, subject := none } := by
  have h' : (measured o : Int) - (reportedSum o.circuit views : Int) < -(l.zero : Int) := h
  simp [judgement, h', residualOf, beforePool]

theorem judgement_notMade {l : Levels} {o : Offer} {views : List SlotView} {rem : Option Tracked}
    (h : -(l.zero : Int) ≤ residualOf o views) (hk : poolKnown views rem = false) :
    judgement l o views rem =
      { residual := residualOf o views, batch := beforePool l o views false, expectation := none, pool := .notMade
        subject := none } := by
  have h' : ¬(measured o : Int) - (reportedSum o.circuit views : Int) < -(l.zero : Int) := not_lt.2 h
  simp [judgement, h', residualOf, beforePool, hk]

theorem judgement_made {l : Levels} {o : Offer} {views : List SlotView} {rem : Option Tracked} {e : Nat}
    {t : Subject} {k : Option Kind} (h : -(l.zero : Int) ≤ residualOf o views) (hk : poolKnown views rem = true)
    (he : poolExpectation o.volts views rem = e) (ht : poolSubject o.volts views rem = t)
    (hkind : poolKind l (residualOf o views) e = k) :
    judgement l o views rem =
      { residual := residualOf o views
        batch := beforePool l o views false ++ poolVerdicts o.circuit k e (residualOf o views) views t
        expectation := some e, pool := poolResultOf k, subject := some t } := by
  subst he ht hkind
  have h' : ¬(measured o : Int) - (reportedSum o.circuit views : Int) < -(l.zero : Int) := not_lt.2 h
  simp [judgement, h', residualOf, beforePool, hk]

theorem beforePool_eq (l : Levels) (o : Offer) (views : List SlotView) (significant : Bool) :
    beforePool l o views significant =
      (views.filter fun v => v.state = .present && v.report.isSome).filterMap
        (fun v => v.report.bind (nodeVerdict l o.circuit o.volts v)) ++
      [{ key := .disagree o.circuit, kind := if significant then some .disagree else none, identity := none
         expected := min (reportedSum o.circuit views) 30000
         deficit := (min (reportedSum o.circuit views) 30000 : Nat) - (measured o : Int) }] := rfl

/-- Settles O57: the pool outcome, and the judgement by its residual. -/
theorem thePoolIsJudgedByItsResidual : Obligations.ThePoolIsJudgedByItsResidual := by
  refine ⟨fun l r e m hm => ⟨by rw [hm]; exact poolKind_eq l r e, poolKind_unitLost, poolKind_nothing r⟩,
    fun l o views rem => ?_⟩
  obtain ⟨r, hr⟩ : ∃ r, r = residualOf o views := ⟨_, rfl⟩
  obtain ⟨e, he⟩ : ∃ e, e = poolExpectation o.volts views rem := ⟨_, rfl⟩
  have hfirst : ∀ significant : Bool, (r < -(l.zero : Int) ↔ significant = true) →
      beforePool l o views significant =
        (views.filter fun v => v.state = .present && v.report.isSome).filterMap
          (fun v => v.report.bind (nodeVerdict l o.circuit o.volts v)) ++
        [{ key := .disagree o.circuit, kind := if r < -(l.zero : Int) then some .disagree else none, identity := none
           expected := min (reportedSum o.circuit views) 30000
           deficit := (min (reportedSum o.circuit views) 30000 : Nat) - (measured o : Int) }] := by
    intro significant hs
    rw [beforePool_eq]
    simp only [hs]
  have hpool := poolSlots_eq views
  have hknown := poolKnown_iff views rem
  have hnot := fun h => poolKnown_false (views := views) (rem := rem) h
  have hone := fun v => poolSubject_one (volts := o.volts) (views := views) (rem := rem) (v := v)
  have hrem := fun h => poolSubject_remainder (volts := o.volts) (views := views) (rem := rem) h
  have hexp : e = min (memberShare o.volts rem + ((poolSlots views).map fun v => memberShare o.volts v.track).sum) 30000 :=
    he
  rw [hpool] at hknown hnot hone hrem hexp
  refine ⟨_, _, _, r, memberShare o.volts, e, _, _, rfl, rfl, rfl, rfl, hr, ?_, funext fun t => memberShare_eq o.volts t,
    hexp, rfl, fun hdis => ?_, fun hagree => ⟨fun hno => ?_, fun hkrem hkpool => ?_⟩⟩
  · rw [judgement_residual, hr]
  · have hj := judgement_disagree (l := l) rem (hr ▸ hdis)
    rw [← hr, ← he, hfirst true (by simp [hdis])] at hj
    refine ⟨by rw [hj]; rfl, by rw [hj], by rw [hj], fun hk => ?_, fun hk => ?_⟩
    · rw [hj]
      exact if_pos (hknown.2 hk)
    · rw [hj]
      exact if_neg (by simp [hnot hk])
  · have hj := judgement_notMade (l := l) (hr ▸ hagree) (hnot hno)
    rw [← hr, hfirst false (by simp [hagree])] at hj
    rw [hj]
    exact ⟨rfl, rfl, rfl, rfl⟩
  · obtain ⟨k, hk⟩ : ∃ k, k = poolKind l r e := ⟨_, rfl⟩
    have hj := judgement_made (l := l) (hr ▸ hagree) (hknown.2 ⟨hkrem, hkpool⟩) he.symm rfl (hr ▸ hk.symm)
    rw [← hr, hfirst false (by simp [hagree])] at hj
    refine ⟨_, by rw [hj], by rw [hj], hone, hrem, fun q hq => ?_, fun hq => ?_⟩
    · rw [hq] at hk
      rw [hj, hk]
      refine ⟨rfl, ?_, ?_, ?_⟩ <;> rintro rfl <;> rfl
    · rw [hq] at hk
      rw [hj, hk]
      refine ⟨rfl, ?_⟩
      rw [List.map_append, List.map_map, ← hpool]
      rfl

end Sys2Proof.Machine
end


/-! ### Outcomes, records and display entries -/

section

/-! PROOFS. O58. -/

namespace Sys2Proof.Machine

/-! ### The debounce machine (R106 to R110) -/

theorem applyVerdict_new {p : Params} {v : Verdict} {f : Flt} (h : findRecord f v.key = none) :
    applyVerdict p v f =
      match v.kind with
      | some k => createSuspect p v k f
      | none => (f, []) := by
  cases hk : v.kind <;> simp only [applyVerdict, h, hk]

/-- A record with the figures of an outcome. -/
def figured (v : Verdict) (r : FaultRecord) : FaultRecord := { r with lastExpected := v.expected, lastDeficit := v.deficit }

theorem applyVerdict_found {p : Params} {v : Verdict} {f : Flt} {i : Nat} {r : FaultRecord}
    (h : findRecord f v.key = some i) (hr : recordAt f i = some r) :
    applyVerdict p v f =
      match v.kind with
      | some k => significant p i (figured v r) k f
      | none => healed p i (figured v r) f := by
  simp only [applyVerdict, recordOf, h, Option.bind_some, hr]
  cases v.kind <;> rfl

theorem createSuspect_cases (p : Params) (v : Verdict) (k : Kind) (f : Flt) :
    (emptyPosition f = none → createSuspect p v k f = ({ f with saturated := true }, [])) ∧
      (∀ i r, emptyPosition f = some i → r =
          { key := v.key, identity := v.identity, kind := k, state := .suspect, suspect := 1, heal := 0
            sequence := none, acked := false, entryId := none, lastExpected := v.expected
            lastDeficit := v.deficit : FaultRecord } →
        (1 < p.confirm → createSuspect p v k f = ({ f with records := f.records.set i (some r) }, [])) ∧
        (p.confirm ≤ 1 → ∃ q, q = { r with state := .active, sequence := some (f.activation + 1) } ∧
          createSuspect p v k f =
            ({ f with records := f.records.set i (some q), activation := f.activation + 1 }, [.activated q]))) := by
  refine ⟨fun h => ?_, fun i r h hr => ⟨fun hc => ?_, fun hc => ⟨_, rfl, ?_⟩⟩⟩
  · simp only [createSuspect, h]
  · subst hr
    simp only [createSuspect, h, if_neg (Nat.not_le.2 hc)]
    rfl
  · subst hr
    simp only [createSuspect, h, if_pos hc]
    rfl

theorem significant_cases (p : Params) (i : Nat) (r : FaultRecord) (k : Kind) (f : Flt) :
    (r.state = .suspect → r.suspect + 1 < p.confirm →
        significant p i r k f =
          ({ f with records := f.records.set i (some { r with kind := k, suspect := r.suspect + 1 }) }, [])) ∧
      (r.state = .suspect → p.confirm ≤ r.suspect + 1 →
        ∃ q, q = { r with kind := k, suspect := r.suspect + 1, state := .active, heal := 0, acked := false
                          sequence := some (f.activation + 1) } ∧
          significant p i r k f =
            ({ f with records := f.records.set i (some q), activation := f.activation + 1 }, [.activated q])) ∧
      (r.state = .active →
        significant p i r k f =
          ({ f with
            records := f.records.set i (some { r with kind := k, acked := r.acked && decide (r.kind = k) }) }, [])) ∧
      (r.state = .healing →
        ∃ q, q = { r with kind := k, acked := r.acked && decide (r.kind = k), state := .active, heal := 0 } ∧
          significant p i r k f = ({ f with records := f.records.set i (some q) }, [.activated q])) := by
  refine ⟨fun h hc => ?_, fun h hc => ⟨_, rfl, ?_⟩, fun h => ?_, fun h => ⟨_, rfl, ?_⟩⟩
  · simp only [significant, h, if_neg (Nat.not_le.2 hc)]
    rfl
  · simp only [significant, h, if_pos hc]
    rfl
  · simp only [significant, h]
    rfl
  · simp only [significant, h]
    rfl

theorem healed_cases (p : Params) (i : Nat) (r : FaultRecord) (f : Flt) :
    (r.state = .suspect → healed p i r f = (dropRecord i f, [.removed r false])) ∧
      (r.state = .active → 1 < p.heal →
        healed p i r f = ({ f with records := f.records.set i (some { r with state := .healing, heal := 1 }) }, [])) ∧
      (r.state = .healing → r.heal + 1 < p.heal →
        healed p i r f = ({ f with records := f.records.set i (some { r with heal := r.heal + 1 }) }, [])) ∧
      ((r.state = .active ∧ p.heal ≤ 1) ∨ (r.state = .healing ∧ p.heal ≤ r.heal + 1) →
        healed p i r f = (dropRecord i f, [.removed r true])) := by
  refine ⟨fun h => ?_, fun h hc => ?_, fun h hc => ?_, ?_⟩
  · simp only [healed, h]
  · simp only [healed, h, if_neg (Nat.not_le.2 hc)]
    rfl
  · simp only [healed, h, if_neg (Nat.not_le.2 hc)]
    rfl
  · rintro (⟨h, hc⟩ | ⟨h, hc⟩)
    · simp only [healed, h, if_pos hc]
    · simp only [healed, h, if_pos hc]

theorem applyBatch_append (p : Params) (vs : List Verdict) (f : Flt) (es : List FltEffect) :
    vs.foldl (fun (acc : FltStep) v => ((applyVerdict p v acc.1).1, acc.2 ++ (applyVerdict p v acc.1).2)) (f, es) =
      ((applyBatch p vs f).1, es ++ (applyBatch p vs f).2) := by
  unfold applyBatch
  simp only
  induction vs generalizing f es with
  | nil => simp
  | cons v vs ih =>
    rw [List.foldl_cons, List.foldl_cons, ih, ih (applyVerdict p v f).1 ([] ++ (applyVerdict p v f).2)]
    simp

/-- A batch is its first outcome, and then the rest on the table that leaves. -/
theorem applyBatch_first (p : Params) (v : Verdict) (vs : List Verdict) (f : Flt) :
    applyBatch p (v :: vs) f =
      ((applyBatch p vs (applyVerdict p v f).1).1,
        (applyVerdict p v f).2 ++ (applyBatch p vs (applyVerdict p v f).1).2) := by
  have h := applyBatch_append p vs (applyVerdict p v f).1 ([] ++ (applyVerdict p v f).2)
  rw [List.nil_append] at h
  exact h

/-! ### The display's entries follow (R129 to R132) -/

theorem retireEntry_eq (timer : Countdown) (r : FaultRecord) (healed : Bool) (e : DisplayEntry) :
    retireEntry timer r healed e =
      if e.state = .resolved ∨ r.entryId ≠ some e.id then some e
      else if healed = true ∧ e.state = .new then
        some { e with
          state := .resolved, version := (e.version + 1) % 16, linger := some timer, subject := keySubject r.key }
      else none := by
  by_cases hs : e.state = .resolved
  · simp [retireEntry, DisplayEntry.live, hs]
  · by_cases hid : r.entryId = some e.id <;> simp [retireEntry, DisplayEntry.live, hs, hid, stepVersion]

theorem retireEntries_removed (timer : Countdown) (r : FaultRecord) (healed : Bool) (es : List FltEffect)
    (list : List DisplayEntry) :
    retireEntries timer (.removed r healed :: es) list =
      retireEntries timer es (list.filterMap (retireEntry timer r healed)) := rfl

theorem syncEntry_unfound {records : List (Option FaultRecord)} {e : DisplayEntry}
    (h : ∀ x, some x ∈ records → x.entryId ≠ some e.id) : syncEntry records e = e := by
  have hfind : (records.filterMap id).find? (fun r => decide (r.entryId = some e.id)) = none := by
    rw [List.find?_eq_none]
    intro x hx
    simpa using h x (by simpa using hx)
  unfold syncEntry
  rw [hfind]
  split <;> rfl

theorem syncEntry_found {records : List (Option FaultRecord)} {e : DisplayEntry} {x : FaultRecord}
    (hs : e.state ≠ .resolved) (hx : (records.filterMap id).find? (fun r => r.entryId = some e.id) = some x) :
    syncEntry records e =
      if e.kind = x.kind ∧ e.state = shownState x ∧ e.subject = keySubject x.key then e
      else { e with
        kind := x.kind, state := shownState x, subject := keySubject x.key, version := (e.version + 1) % 16 } := by
  have hl : e.live = true := by simp [DisplayEntry.live, hs]
  simp only [syncEntry, hl, hx, if_true]
  rfl

/-- Settles O58: one outcome, a batch, and the entries of removed and of changed records. -/
theorem anOutcomeMeetsItsRecord : Obligations.AnOutcomeMeetsItsRecord := by
  intro p v f
  refine ⟨fun h hk => ?_, fun k h hk => ?_, fun i r0 r hf hr0 hr => ⟨fun k hk => ?_, fun hk => ?_⟩, ⟨rfl, fun vs => ?_⟩,
    fun timer r healed es list => ⟨rfl, rfl, ?_⟩, fun records e => ⟨fun hs => ?_, syncEntry_unfound,
      fun x d t hs hx hd ht => ?_⟩⟩
  · rw [applyVerdict_new h, hk]
  · have hnew := applyVerdict_new (p := p) h
    rw [hk] at hnew
    rw [hnew]
    exact createSuspect_cases p v k f
  · have hfound := applyVerdict_found (p := p) hf hr0
    rw [hk, show figured v r0 = r from hr.symm] at hfound
    rw [hfound]
    exact significant_cases p i r k f
  · have hfound := applyVerdict_found (p := p) hf hr0
    rw [hk, show figured v r0 = r from hr.symm] at hfound
    obtain ⟨hsuspect, hactive, hhealing, hremoved⟩ := healed_cases p i r f
    rw [hfound]
    have hdrop : healed p i r f = (dropRecord i f, [.removed r false]) ∨
        healed p i r f = (dropRecord i f, [.removed r true]) →
        (healed p i r f).1.records = f.records.set i none ∧ (healed p i r f).1.activation = f.activation ∧
          (healed p i r f).1.saturated =
            (f.saturated && !decide (((f.records.set i none).filter Option.isSome).length < 32)) := by
      rintro (h | h) <;> rw [h] <;> exact ⟨rfl, rfl, rfl⟩
    refine ⟨fun h => ?_, hactive, hhealing, fun h => ?_, fun h => hdrop ?_⟩
    · rw [hsuspect h]
    · rw [hremoved h]
    · exact h.imp hsuspect hremoved
  · rw [applyBatch_first]
    exact ⟨rfl, rfl⟩
  · rw [retireEntries_removed]
    refine congrArg _ (congrArg (fun g => list.filterMap g) (funext fun e => ?_))
    rw [retireEntry_eq]
    cases r.key <;> rfl
  · exact syncEntry_resolved (by simp [DisplayEntry.live, hs])
  · have hd' : d = shownState x := hd
    have ht' : t = keySubject x.key := ht.trans (by cases x.key <;> rfl)
    rw [syncEntry_found hs hx, ← hd', ← ht']
    refine ⟨fun hkind hstate hsub => if_pos ⟨hkind, hstate, hsub⟩, fun hno => if_neg ?_⟩
    rintro ⟨hkind, hstate, hsub⟩
    rcases hno with h | h | h
    · exact h hkind
    · exact h hstate
    · exact h hsub

end Sys2Proof.Machine
end


/-! ### Learning and capture values, and the hand-overs -/

section

/-! PROOFS. O59. -/

namespace Sys2Proof.Machine

/-! ### A value and its run (R54 to R56, R156) -/

theorem lt_absDiff_iff (t a b : Nat) : t < absDiff a b ↔ (t : Int) < |(a : Int) - (b : Int)| := by
  unfold absDiff
  split
  · rw [abs_of_neg (by omega)]
    omega
  · rw [abs_of_nonneg (by omega)]
    omega

theorem learnEntry_declined {c : Circuit} {tAbs l value volts : Nat} {cls : LampClass} {e : Entry}
    (h : e.lock = .commissioned ∨ (e.cells.get c).base.state = .known) : learnEntry c tAbs l value volts cls e = e := by
  refine if_neg ?_
  rintro ⟨ho, hk⟩
  rcases h with h | h
  · rw [h] at ho
    cases ho
  · exact hk h

/-- The run a value leaves in an UNKNOWN or LEARNING cell. -/
theorem extendRun_of_cell (tAbs value volts : Nat) (x : LoadCell) :
    extendRun tAbs value volts (if x.base.state = .unknown then LearningRecord.empty else x.learn) =
      if x.base.state = .unknown ∨ x.learn.count = 0 ∨ (tAbs : Int) < |(value : Int) - (x.learn.first : Int)| then
        { count := 1, first := value, sumValue := value, sumVolt := volts }
      else { count := x.learn.count + 1, first := x.learn.first, sumValue := x.learn.sumValue + value
             sumVolt := x.learn.sumVolt + volts } := by
  by_cases hu : x.base.state = .unknown
  · simp [extendRun, hu, LearningRecord.empty]
  · simp [extendRun, hu, lt_absDiff_iff]

theorem learnEntry_taken {c : Circuit} {tAbs l value volts : Nat} {cls : LampClass} {e : Entry} {x r : LoadCell}
    (ho : e.lock = .opened) (hx : x = e.cells.get c) (hk : x.base.state ≠ .known)
    (hr : r.learn = extendRun tAbs value volts (if x.base.state = .unknown then LearningRecord.empty else x.learn)) :
    (r.learn.count < l →
      learnEntry c tAbs l value volts cls e =
        { e with cells := (e.cells.set c
          { base := { state := .learning, cls := .filament, nominal := 0, vref := 24000 }, learn := r.learn }) }) ∧
    (l ≤ r.learn.count →
      learnEntry c tAbs l value volts cls e =
        { e with cells := (e.cells.set c
          { base := { state := .known, cls := cls, nominal := min ((2 * r.learn.sumValue + l) / (2 * l)) 20000
                      vref := (2 * r.learn.sumVolt + l) / (2 * l) }
            learn := { count := 0, first := 0, sumValue := 0, sumVolt := 0 } }) }) := by
  subst hx
  have htaken : learnEntry c tAbs l value volts cls e =
      { e with cells := e.cells.set c (learnCell tAbs l value volts cls (e.cells.get c)) } := if_pos ⟨ho, hk⟩
  rw [htaken]
  simp only [learnCell, ← hr]
  refine ⟨fun h => ?_, fun h => ?_⟩
  · rw [if_neg (Nat.not_le.2 h)]
    rfl
  · rw [if_pos h]
    rfl

theorem captureValue_declined {p : Params} {c : Circuit} {value volts : Nat} {cls : LampClass} {k : CaptureRecord}
    (h : k.circuit ≠ c ∨ k.captured ≠ none) : captureValue p c value volts cls k = k := by
  refine if_pos ?_
  rcases h with h | h
  · simp [h]
  · simp [Option.isSome_iff_ne_none.2 h]

theorem captureValue_taken {p : Params} {c : Circuit} {value volts : Nat} {cls : LampClass} {k q : CaptureRecord}
    (hc : k.circuit = c) (hn : k.captured = none)
    (hq : q = if k.count = 0 ∨ (p.tAbs.get c : Int) < |(value : Int) - (k.first : Int)| then
        { k with count := 1, first := value, sumValue := value, sumVolt := volts }
      else { k with count := k.count + 1, sumValue := k.sumValue + value, sumVolt := k.sumVolt + volts }) :
    (q.count < p.learnCount → captureValue p c value volts cls k = q) ∧
      (p.learnCount ≤ q.count →
        captureValue p c value volts cls k =
          { q with
            captured :=
              some { nominal := min ((2 * q.sumValue + p.learnCount) / (2 * p.learnCount)) 20000, cls := cls
                     vref := (2 * q.sumVolt + p.learnCount) / (2 * p.learnCount) } }) := by
  have hcond : ¬(k.captured.isSome || k.circuit != c) = true := by simp [hc, hn]
  have hq' : q = { k with
      count := (extendRun (p.tAbs.get c) value volts
        { count := k.count, first := k.first, sumValue := k.sumValue, sumVolt := k.sumVolt }).count
      first := (extendRun (p.tAbs.get c) value volts
        { count := k.count, first := k.first, sumValue := k.sumValue, sumVolt := k.sumVolt }).first
      sumValue := (extendRun (p.tAbs.get c) value volts
        { count := k.count, first := k.first, sumValue := k.sumValue, sumVolt := k.sumVolt }).sumValue
      sumVolt := (extendRun (p.tAbs.get c) value volts
        { count := k.count, first := k.first, sumValue := k.sumValue, sumVolt := k.sumVolt }).sumVolt } := by
    simp only [hq, extendRun, lt_absDiff_iff]
    split <;> rfl
  rw [captureValue, if_neg hcond]
  refine ⟨fun h => ?_, fun h => ?_⟩
  · rw [hq'] at h ⊢
    simp only [if_neg (Nat.not_le.2 h), hn]
  · rw [hq'] at h ⊢
    simp only [if_pos h]
    rfl

/-! ### What is handed over (R40, R45, R53) -/

theorem qualifies_iff (settleEnd : Option Nat) (time : Nat) (x : LatestReport) :
    qualifies settleEnd time x = true ↔ ∃ d, settleEnd = some d ∧ d < x.arrival ∧ time ≤ x.arrival + 300000 := by
  have hage : reportMaxAge = 300000 := rfl
  cases settleEnd <;> simp [qualifies, hage]

theorem trackedAt_handed {p : Params} {t : Ldt} {c : Circuit} {o : Option Nat} {i : Nat} {e : Entry} (ho : o = some i)
    (he : entryAt t i = some e) : HandedAs p c i e (trackedAt p t c o) := by
  subst ho
  refine ⟨readBaseline p c e, _, rfl, ?_, rfl, fun hk => ?_, fun id hk hkey => ?_, fun sig hk hkey => ?_⟩
  · simp only [trackedAt, he]
    rfl
  · simp only [readBaseline, shownClass, if_pos hk]
  · simp [readBaseline, shownClass, hk, hkey, isRemainder]
  · simp [readBaseline, shownClass, hk, hkey, isRemainder]

theorem trackedAt_none (p : Params) (t : Ldt) (c : Circuit) {o : Option Nat} (ho : o = none) :
    trackedAt p t c o = none := by
  rw [ho]
  rfl

theorem slotViews_at {s : State} (o : Offer) {n : Nat} {x : Slot} (h : s.clc.table[n]? = some x) :
    (slotViews s o)[n]? = some (slotView s o x (n + 1)) := by
  simp [slotViews, List.getElem?_map, List.getElem?_zipIdx, h]

theorem slotView_report (s : State) (o : Offer) (x : Slot) (n : Nat) (r : Report) :
    (slotView s o x n).report = some r ↔
      ∃ y, x.latest = some y ∧ y.report = r ∧ qualifies o.settleEnd o.time y = true := by
  simp only [slotView, Option.map_eq_some_iff, Option.filter_eq_some_iff]
  constructor
  · rintro ⟨y, ⟨hy, hq⟩, hr⟩
    exact ⟨y, hy, hr, hq⟩
  · rintro ⟨y, hy, hr, hq⟩
    exact ⟨y, ⟨hy, hq⟩, hr⟩

/-! ### Usable units (R54, R90, R100) -/

theorem slotUsable_iff (c : Circuit) (v : SlotView) : slotUsable c v = true ↔
    v.track ≠ none ∧ v.state = .present ∧
      ∃ r, v.report = some r ∧ r.outage.get c = 0 ∧ r.energized.getLsbD c.val = true := by
  cases hr : v.report with
  | none => simp [slotUsable, SlotView.reported, hr]
  | some r => simp [slotUsable, SlotView.reported, hr, outageFor, energizedFor, Option.isSome_iff_ne_none, and_assoc]

theorem remainderUsable_iff (views : List SlotView) (rem : Option Tracked) (r : Int) :
    remainderUsable views rem r = true ↔
      rem ≠ none ∧ (∀ v ∈ views, v.report ≠ none ∧ v.state = .present) ∧ 0 ≤ r := by
  simp [remainderUsable, Option.isSome_iff_ne_none, and_assoc]

theorem targetValue_usable {p : Params} {c : Circuit} {views : List SlotView} {rem : Option Tracked} {r : Int} {n : Nat}
    {v : SlotView} {x : Report} (hv : views.find? (fun v => v.slot = n) = some v) (hu : slotUsable c v = true)
    (hx : v.report = some x) :
    targetValue p c views rem r (.slot n) = some (x.current.get c, x.cls.get c) := by
  simp only [targetValue, hv, if_pos hu, hx]
  rfl

theorem targetValue_unusable {p : Params} {c : Circuit} {views : List SlotView} {rem : Option Tracked} {r : Int}
    {n : Nat} (h : ∀ v, views.find? (fun v => v.slot = n) = some v → slotUsable c v = false) :
    targetValue p c views rem r (.slot n) = none := by
  unfold targetValue
  simp only
  split
  · rename_i v hv
    exact if_neg (by simp [h v hv])
  · rfl

/-- Settles O59: the run, the hand-overs, usability, and the capture record. -/
theorem aLearningValueJoinsItsRun : Obligations.ALearningValueJoinsItsRun := by
  intro c tAbs l value volts cls e _
  refine ⟨learnEntry_declined, fun x r ho hx hk hr => ?_, qualifies_iff, fun s o n x hx => ?_, fun s => ⟨fun i e hi he => ?_,
    fun hi => ?_⟩, slotUsable_iff c, remainderUsable_iff, fun p views rem r => ⟨fun n v x => targetValue_usable,
      fun n => targetValue_unusable, rfl⟩, fun p k => ⟨captureValue_declined, fun q => captureValue_taken⟩⟩
  · exact learnEntry_taken ho hx hk (hr.trans (extendRun_of_cell tAbs value volts x).symm)
  · exact ⟨_, slotViews_at o hx, rfl, rfl, rfl, rfl, fun r => slotView_report s o x (n + 1) r,
      fun i e hi he => trackedAt_handed hi he, fun hi => trackedAt_none _ _ _ hi⟩
  · exact trackedAt_handed hi he
  · exact trackedAt_none _ _ _ hi

end Sys2Proof.Machine
end


/-! ### The order of candidates, free ids, re-evaluation and telltales -/

section

/-! PROOFS. Lemmas for O60. -/

namespace Sys2Proof.Machine

/-! ### The one order of candidates (R125) -/

theorem ranksBefore_iff (a b : Candidate) :
    ranksBefore a b = true ↔
      b.severity < a.severity ∨ a.severity = b.severity ∧
        (a.sequence < b.sequence ∨ a.sequence = b.sequence ∧
          (a.resolved = false ∧ b.resolved = true ∨ a.resolved = b.resolved ∧ a.index ≤ b.index)) := by
  unfold ranksBefore
  by_cases hs : a.severity = b.severity
  · by_cases hq : a.sequence = b.sequence
    · cases ha : a.resolved <;> cases hb : b.resolved <;> simp [hs, hq]
    · simp [hs, hq]
  · simp [hs]

theorem ranksBefore_total (a b : Candidate) : ranksBefore a b = true ∨ ranksBefore b a = true := by
  rw [ranksBefore_iff, ranksBefore_iff]
  cases a.resolved <;> cases b.resolved <;> simp <;> omega

theorem ranksBefore_antisymm {a b : Candidate} (hab : ranksBefore a b = true) (hba : ranksBefore b a = true) :
    a = b := by
  rw [ranksBefore_iff] at hab hba
  obtain ⟨sa, qa, ra, ia⟩ := a
  obtain ⟨sb, qb, rb, ib⟩ := b
  simp only [Candidate.mk.injEq] at *
  cases ra <;> cases rb <;> simp at * <;> omega

theorem ranksBefore_trans {a b d : Candidate} (hab : ranksBefore a b = true) (hbd : ranksBefore b d = true) :
    ranksBefore a d = true := by
  rw [ranksBefore_iff] at *
  cases ha : a.resolved <;> cases hb : b.resolved <;> cases hd : d.resolved <;> simp [ha, hb, hd] at * <;> omega

theorem ranked_pairwise (l : List Candidate) :
    (l.insertionSort fun a b => ranksBefore a b = true).Pairwise fun a b => ranksBefore a b = true := by
  have : Std.Total fun a b => ranksBefore a b = true := ⟨ranksBefore_total⟩
  have : IsTrans Candidate fun a b => ranksBefore a b = true := ⟨fun _ _ _ => ranksBefore_trans⟩
  exact List.pairwise_insertionSort _ l

/-- The same candidates rank the same however they come. -/
theorem ranked_of_perm {l m : List Candidate} (h : l.Perm m) :
    l.insertionSort (fun a b => ranksBefore a b = true) = m.insertionSort fun a b => ranksBefore a b = true :=
  List.Perm.eq_of_pairwise (fun _ _ _ _ => ranksBefore_antisymm) (ranked_pairwise l) (ranked_pairwise m)
    (((List.perm_insertionSort _ l).trans h).trans (List.perm_insertionSort _ m).symm)

/-! ### The next free id (R128) -/

/-- The k-th id forward from n, 255 going to 1. -/
def idAfter (n k : Nat) : Nat := (n - 1 + k) % 255 + 1

theorem idAfter_zero {n : Nat} (h1 : 1 ≤ n) (h2 : n ≤ 255) : idAfter n 0 = n := by
  unfold idAfter
  omega

theorem nextId_range (n : Nat) : 1 ≤ nextId n ∧ nextId n ≤ 255 := by
  unfold nextId
  split <;> omega

theorem idAfter_nextId {n : Nat} (h1 : 1 ≤ n) (h2 : n ≤ 255) (k : Nat) : idAfter (nextId n) k = idAfter n (k + 1) := by
  unfold idAfter nextId
  split <;> omega

/-- Stepping forward, the search takes the first id that is not in use, or has found every id it tried in use. -/
theorem freeId_steps (used : List Nat) (fuel : Nat) {n : Nat} (h1 : 1 ≤ n) (h2 : n ≤ 255) :
    (∃ k, k < fuel ∧ freeId used fuel n = idAfter n k ∧ idAfter n k ∉ used ∧ ∀ j, j < k → idAfter n j ∈ used) ∨
      ∀ j, j < fuel → idAfter n j ∈ used := by
  induction fuel generalizing n with
  | zero => exact .inr fun j hj => absurd hj (Nat.not_lt_zero j)
  | succ fuel ih =>
    by_cases hn : n ∈ used
    · have hstep : freeId used (fuel + 1) n = freeId used fuel (nextId n) := if_pos hn
      have hfirst : idAfter n 0 ∈ used := by rwa [idAfter_zero h1 h2]
      obtain ⟨l, u⟩ := nextId_range n
      rcases ih l u with ⟨k, hk, heq, hfree, hused⟩ | hall
      · refine .inl ⟨k + 1, by omega, ?_, idAfter_nextId h1 h2 k ▸ hfree, fun j hj => ?_⟩
        · rw [hstep, heq, idAfter_nextId h1 h2]
        · cases j with
          | zero => exact hfirst
          | succ j => exact idAfter_nextId h1 h2 j ▸ hused j (by omega)
      · refine .inr fun j hj => ?_
        cases j with
        | zero => exact hfirst
        | succ j => exact idAfter_nextId h1 h2 j ▸ hall j (by omega)
    · refine .inl ⟨0, by omega, ?_, by rwa [idAfter_zero h1 h2], fun j hj => absurd hj (Nat.not_lt_zero j)⟩
      rw [idAfter_zero h1 h2]
      exact if_neg hn

/-- 255 steps forward meet 255 different ids, so that fewer used ones leave one free. -/
theorem exists_idAfter_unused {used : List Nat} (h : used.length < 255) (n : Nat) : ∃ j, j < 255 ∧ idAfter n j ∉ used := by
  by_contra hno
  push Not at hno
  have hsub : (Finset.range 255).image (idAfter n) ⊆ used.toFinset := by
    intro x hx
    obtain ⟨j, hj, rfl⟩ := Finset.mem_image.1 hx
    exact List.mem_toFinset.2 (hno j (Finset.mem_range.1 hj))
  have hinj : Set.InjOn (idAfter n) (Finset.range 255) := by
    intro i hi j hj hij
    simp only [Finset.coe_range, Set.mem_Iio] at hi hj
    unfold idAfter at hij
    omega
  have hcard := Finset.card_le_card hsub
  rw [Finset.card_image_of_injOn hinj, Finset.card_range] at hcard
  have hlen := List.toFinset_card_le used
  omega

theorem freeId_first {used : List Nat} {n : Nat} (h1 : 1 ≤ n) (h2 : n ≤ 255) (h : used.length < 255) :
    freeId used 255 n ∉ used ∧
      ∃ k, k < 255 ∧ freeId used 255 n = idAfter n k ∧ ∀ j, j < k → idAfter n j ∈ used := by
  rcases freeId_steps used 255 h1 h2 with ⟨k, hk, heq, hfree, hused⟩ | hall
  · exact ⟨heq ▸ hfree, k, hk, heq, hused⟩
  · obtain ⟨j, hj, hn⟩ := exists_idAfter_unused h n
    exact absurd (hall j hj) hn

theorem freeId_range {used : List Nat} {n : Nat} (h1 : 1 ≤ n) (h2 : n ≤ 255) (h : used.length < 255) :
    1 ≤ freeId used 255 n ∧ freeId used 255 n ≤ 255 := by
  obtain ⟨-, k, -, heq, -⟩ := freeId_first h1 h2 h
  rw [heq]
  unfold idAfter
  omega

theorem freeId_congr {used taken : List Nat} (h : ∀ x, x ∈ used ↔ x ∈ taken) (fuel n : Nat) :
    freeId used fuel n = freeId taken fuel n := by
  induction fuel generalizing n with
  | zero => rfl
  | succ fuel ih =>
    simp only [freeId, h n, ih]

/-! ### A re-evaluation sends a changed list (R126, R137) -/

theorem reevaluate_sends {before : ListView} {s u : State}
    (hu : u = { s with flt := (rebuildList s.params s.flt s.dsr).1, dsr := (rebuildList s.params s.flt s.dsr).2 }) :
    (s.pwc.power = .active → listView u.dsr ≠ before → reevaluate before s = sendSnapshot u) ∧
      (s.pwc.power ≠ .active ∨ listView u.dsr = before → reevaluate before s = u) := by
  have key : reevaluate before s =
      if s.pwc.power = .active && listView u.dsr != before then sendSnapshot u else u := by
    subst hu
    rfl
  rw [key]
  refine ⟨fun hp hl => if_pos (by simp [hp, hl]), fun h => if_neg ?_⟩
  rcases h with h | h <;> simp [h]

/-! ### The telltales (R136) -/

theorem telltaleOf_iff {entries mine : List DisplayEntry} (h : ∀ e, e ∈ mine ↔ e ∈ entries) :
    (telltaleOf entries = .off ↔ mine = []) ∧ (telltaleOf entries = .flash ↔ ∃ e ∈ mine, e.state = .new) ∧
      (telltaleOf entries = .steady ↔ mine ≠ [] ∧ ∀ e ∈ mine, e.state ≠ .new) := by
  have hnil : mine = [] ↔ entries = [] := by
    simp only [List.eq_nil_iff_forall_not_mem, h]
  simp only [hnil, h, ne_eq]
  clear h hnil
  unfold telltaleOf
  cases entries with
  | nil => simp
  | cons a rest =>
    by_cases hnew : (a :: rest).any (·.state = .new) = true
    · have hex : ∃ e ∈ a :: rest, e.state = .new := by simpa using hnew
      rw [if_neg (by simp), if_pos hnew]
      obtain ⟨e, he, hs⟩ := hex
      exact ⟨by simp, iff_of_true rfl ⟨e, he, hs⟩, iff_of_false (by simp) fun hall => hall.2 e he hs⟩
    · have hall : ∀ e ∈ a :: rest, e.state ≠ .new := by simpa using hnew
      rw [if_neg (by simp), if_neg hnew]
      exact ⟨by simp, iff_of_false (by simp) fun ⟨e, he, hs⟩ => hall e he hs, iff_of_true rfl ⟨by simp, hall⟩⟩

theorem telltales_iff {list mine : List DisplayEntry} {look : DisplayEntry → Prop} {t : Telltale}
    (ht : ((∀ e, look e ↔ e.circuit = some 0) ∧ t = (telltales list).left) ∨
      ((∀ e, look e ↔ e.circuit = some 1) ∧ t = (telltales list).right) ∨
      ((∀ e, look e ↔ e.circuit ≠ some 0 ∧ e.circuit ≠ some 1) ∧ t = (telltales list).general))
    (hm : ∀ e, e ∈ mine ↔ e ∈ list ∧ e.state ≠ .resolved ∧ look e) :
    (t = .off ↔ mine = []) ∧ (t = .flash ↔ ∃ e ∈ mine, e.state = .new) ∧
      (t = .steady ↔ mine ≠ [] ∧ ∀ e ∈ mine, e.state ≠ .new) := by
  rcases ht with ⟨hl, rfl⟩ | ⟨hl, rfl⟩ | ⟨hl, rfl⟩
  all_goals
    refine telltaleOf_iff fun e => ?_
    rw [hm, hl]
    simp [and_comm, and_left_comm]

end Sys2Proof.Machine

end


/-! ### The rebuilt list -/

section

/-! PROOFS. O60. -/

namespace Sys2Proof.Machine

/-! ### One candidate takes its place (R127, R128) -/

/-- The entry a record with an id has in the rebuilt list: its own, or a new one of the same id. -/
def stayedEntry (p : Params) (old : List DisplayEntry) (id : Nat) (r : FaultRecord) : DisplayEntry :=
  match old.find? fun e => e.live && e.id = id with
  | some e => { e with severity := recordSeverity p r }
  | none => entryOf p id r

section

variable {p : Params} {old : List DisplayEntry} {kept : List Nat} {b : Rebuild} {k : Candidate}

theorem placeCandidate_resolved {e : DisplayEntry} (hk : k.resolved = true)
    (he : (old.find? fun e => !e.live && e.id = k.index) = some e) :
    placeCandidate p old kept b k = { b with entries := b.entries ++ [e] } := by
  unfold placeCandidate
  rw [if_pos hk]
  simp only [he]

theorem placeCandidate_held {r : FaultRecord} {id : Nat} (hk : k.resolved = false)
    (hr : b.records.getD k.index none = some r) (hid : r.entryId = some id) :
    placeCandidate p old kept b k = { b with entries := b.entries ++ [stayedEntry p old id r] } := by
  unfold placeCandidate stayedEntry
  rw [if_neg (by simp [hk])]
  simp only [hr, hid]
  cases (old.find? fun e => e.live && e.id = id) <;> rfl

theorem placeCandidate_fresh {r : FaultRecord} {id : Nat} (hk : k.resolved = false)
    (hr : b.records.getD k.index none = some r) (hid : r.entryId = none)
    (hfree : id = freeId (kept ++ recordIds b.records) 255 b.counter) :
    placeCandidate p old kept b k =
      { records := b.records.set k.index (some { r with entryId := some id }), counter := nextId id
        entries := b.entries ++ [entryOf p id r] } := by
  subst hfree
  unfold placeCandidate
  rw [if_neg (by simp [hk])]
  simp only [hr, hid]

end

theorem lt_length_of_getD_some {α : Type} {l : List (Option α)} {i : Nat} {a : α} (h : l.getD i none = some a) :
    i < l.length := by
  by_contra hi
  simp [List.getD, List.getElem?_eq_none (Nat.le_of_not_lt hi)] at h

theorem getD_set_self {α : Type} {l : List (Option α)} {i : Nat} {a x : α} (h : l.getD i none = some a) :
    (l.set i (some x)).getD i none = some x := by
  simp [List.getD, lt_length_of_getD_some h]

theorem getD_set_other {α : Type} {l : List (Option α)} {i j : Nat} (h : i ≠ j) (o : Option α) :
    (l.set i o).getD j none = l.getD j none := by
  simp [List.getD, List.getElem?_set_ne h]

/-- What the placing of a candidate can meet: its RESOLVED entry, or its record. -/
def HasPlace (old : List DisplayEntry) (records : List (Option FaultRecord)) (k : Candidate) : Prop :=
  (k.resolved = true → ∃ e, (old.find? fun e => !e.live && e.id = k.index) = some e) ∧
    (k.resolved = false → ∃ r, records.getD k.index none = some r)

/-- No two live candidates are of one record. -/
def Apart (a b : Candidate) : Prop := a.resolved = false → b.resolved = false → a.index ≠ b.index

/-- The entry of a taken candidate, by the records as they were and as they come out. -/
def TakenAs (p : Params) (old : List DisplayEntry) (records records' : List (Option FaultRecord)) (k : Candidate)
    (e : DisplayEntry) : Prop :=
  (k.resolved = true → (old.find? fun e => !e.live && e.id = k.index) = some e) ∧
    (k.resolved = false → ∃ r id, records.getD k.index none = some r ∧
      records'.getD k.index none = some { r with entryId := some id } ∧
      (∀ m, r.entryId = some m → id = m ∧ e = stayedEntry p old id r) ∧ (r.entryId = none → e = entryOf p id r))

/-- The candidate needs an id. -/
def needsId (records : List (Option FaultRecord)) (k : Candidate) : Bool :=
  !k.resolved && (records.getD k.index none).any fun r => r.entryId.isNone

/-- A candidate's placing appends its entry; only a record that needs an id is written, and the counter with it. -/
theorem placeCandidate_takes (p : Params) {old : List DisplayEntry} (kept : List Nat) {b : Rebuild} {k : Candidate}
    (h : HasPlace old b.records k) :
    ∃ e, (placeCandidate p old kept b k).entries = b.entries ++ [e] ∧
      TakenAs p old b.records (placeCandidate p old kept b k).records k e := by
  obtain ⟨hres, hlive⟩ := h
  cases hk : k.resolved with
  | true =>
    obtain ⟨e, he⟩ := hres hk
    rw [placeCandidate_resolved hk he]
    exact ⟨e, rfl, fun _ => he, fun h => absurd (hk.symm.trans h) (by decide)⟩
  | false =>
    obtain ⟨r, hr⟩ := hlive hk
    cases hid : r.entryId with
    | some id =>
      rw [placeCandidate_held hk hr hid]
      refine ⟨_, rfl, fun h => absurd (hk.symm.trans h) (by decide), fun _ => ⟨r, id, hr, ?_, ?_, ?_⟩⟩
      · rw [hr, ← hid]
      · exact fun m hm => ⟨Option.some.inj (hid.symm.trans hm), rfl⟩
      · exact fun hn => absurd (hid.symm.trans hn) nofun
    | none =>
      rw [placeCandidate_fresh hk hr hid rfl]
      refine ⟨_, rfl, fun h => absurd (hk.symm.trans h) (by decide),
        fun _ => ⟨r, _, hr, getD_set_self hr, ?_, fun _ => rfl⟩⟩
      exact fun m hm => absurd (hid.symm.trans hm) nofun

theorem placeCandidate_other (p : Params) (old : List DisplayEntry) (kept : List Nat) (b : Rebuild) {k : Candidate}
    {i : Nat} (h : k.resolved = true ∨ k.index ≠ i) :
    (placeCandidate p old kept b k).records.getD i none = b.records.getD i none := by
  unfold placeCandidate
  split
  · split <;> rfl
  · rename_i hk
    split
    · rfl
    · split
      · split <;> rfl
      · exact getD_set_other (h.resolve_left hk) _

/-! ### All of them take their places -/

theorem foldl_placeCandidate_other (p : Params) (old : List DisplayEntry) (kept : List Nat) {ks : List Candidate}
    (b : Rebuild) {i : Nat} (h : ∀ k ∈ ks, k.resolved = true ∨ k.index ≠ i) :
    (ks.foldl (placeCandidate p old kept) b).records.getD i none = b.records.getD i none := by
  induction ks generalizing b with
  | nil => rfl
  | cons k ks ih =>
    rw [List.foldl_cons, ih _ fun x hx => h x (List.mem_cons_of_mem k hx)]
    exact placeCandidate_other p old kept b (h k List.mem_cons_self)

section

variable {p : Params} {old : List DisplayEntry} {kept : List Nat} {b : Rebuild} {k x : Candidate}

theorem Apart.other (h : Apart k x) (hx : x.resolved = false) : k.resolved = true ∨ k.index ≠ x.index := by
  cases hk : k.resolved with
  | true => exact .inl rfl
  | false => exact .inr (h hk hx)

/-- Another candidate's placing leaves a candidate placeable as it was. -/
theorem HasPlace.after (h : HasPlace old b.records x) (ha : Apart k x) :
    HasPlace old (placeCandidate p old kept b k).records x :=
  ⟨h.1, fun hx => by rw [placeCandidate_other p old kept b (ha.other hx)]; exact h.2 hx⟩

theorem needsId_after (ha : Apart k x) :
    needsId (placeCandidate p old kept b k).records x = needsId b.records x := by
  unfold needsId
  cases hx : x.resolved with
  | true => rfl
  | false => rw [placeCandidate_other p old kept b (ha.other hx)]

theorem TakenAs.before {records' : List (Option FaultRecord)} {e : DisplayEntry}
    (h : TakenAs p old (placeCandidate p old kept b k).records records' x e) (ha : Apart k x) :
    TakenAs p old b.records records' x e :=
  ⟨h.1, fun hx => by rw [← placeCandidate_other p old kept b (ha.other hx)]; exact h.2 hx⟩

theorem TakenAs.of_same {records records' records'' : List (Option FaultRecord)} {e : DisplayEntry}
    (h : TakenAs p old records records' x e)
    (hs : x.resolved = false → records''.getD x.index none = records'.getD x.index none) :
    TakenAs p old records records'' x e :=
  ⟨h.1, fun hx => by rw [hs hx]; exact h.2 hx⟩

end

/-- Every taken candidate has its entry, in the order of rank (R126, R127). -/
theorem foldl_placeCandidate_takes (p : Params) {old : List DisplayEntry} (kept : List Nat) {ks : List Candidate}
    {b : Rebuild} (ha : ks.Pairwise Apart) (h : ∀ k ∈ ks, HasPlace old b.records k) :
    ∃ es, (ks.foldl (placeCandidate p old kept) b).entries = b.entries ++ es ∧
      List.Forall₂ (TakenAs p old b.records (ks.foldl (placeCandidate p old kept) b).records) ks es := by
  induction ks generalizing b with
  | nil => exact ⟨[], by simp, .nil⟩
  | cons k ks ih =>
    obtain ⟨hk, hks⟩ := List.pairwise_cons.1 ha
    obtain ⟨e, he, htaken⟩ := placeCandidate_takes p kept (h k List.mem_cons_self)
    obtain ⟨es, hes, hall⟩ := ih hks fun x hx => (h x (List.mem_cons_of_mem k hx)).after (hk x hx)
    refine ⟨e :: es, ?_, .cons ?_ ?_⟩
    · rw [List.foldl_cons, hes, he, List.append_assoc]
      rfl
    · refine htaken.of_same fun hl => ?_
      refine foldl_placeCandidate_other p old kept (placeCandidate p old kept b k) fun x hx => ?_
      cases hr : x.resolved with
      | true => exact .inl rfl
      | false => exact .inr (hk x hx hl hr).symm
    · refine List.forall₂_iff_get.2 ⟨hall.length_eq, fun i hi hj => ?_⟩
      exact (hall.get hi hj).before (hk _ (List.get_mem _ _))

/-! ### The ids assigned (R128) -/

/-- The ids the counter gives in turn, each the next one not in use. -/
def assignIds (used : List Nat) (counter : Nat) : Nat → List Nat
  | 0 => []
  | n + 1 => freeId used 255 counter ::
      assignIds (used ++ [freeId used 255 counter]) (nextId (freeId used 255 counter)) n

/-- The counter behind the first n ids. -/
def counterAfter (counter : Nat) (ids : List Nat) : Nat → Nat
  | 0 => counter
  | n + 1 => nextId (ids.getD n 0)

theorem assignIds_length (used : List Nat) (counter n : Nat) : (assignIds used counter n).length = n := by
  induction n generalizing used counter with
  | zero => rfl
  | succ n ih => rw [assignIds, List.length_cons, ih]

theorem assignIds_congr {used taken : List Nat} (h : ∀ x, x ∈ used ↔ x ∈ taken) (counter n : Nat) :
    assignIds used counter n = assignIds taken counter n := by
  induction n generalizing used taken counter with
  | zero => rfl
  | succ n ih =>
    simp only [assignIds, freeId_congr h]
    exact congrArg _ (ih (fun x => by simp only [List.mem_append, h x]) _)

theorem counterAfter_cons (counter id : Nat) (ids : List Nat) (n : Nat) :
    counterAfter counter (id :: ids) (n + 1) = counterAfter (nextId id) ids n := by
  cases n <;> rfl

theorem assignIds_at {used : List Nat} {counter m n id : Nat} (h : (assignIds used counter m)[n]? = some id) :
    id = freeId (used ++ (assignIds used counter m).take n) 255
        (counterAfter counter (assignIds used counter m) n) ∧
      counterAfter counter (assignIds used counter m) (n + 1) = nextId id := by
  refine ⟨?_, by simp [counterAfter, List.getD, h]⟩
  induction m generalizing used counter n with
  | zero => simp [assignIds] at h
  | succ m ih =>
    cases n with
    | zero =>
      simp only [assignIds, List.getElem?_cons_zero, Option.some.injEq] at h
      simp [← h, counterAfter]
    | succ n =>
      simp only [assignIds, List.getElem?_cons_succ] at h
      have hid := ih h
      simp only [assignIds, counterAfter_cons, List.take_succ_cons]
      rw [hid]
      simp [List.append_assoc]

theorem mem_recordIds_set {records : List (Option FaultRecord)} {i id : Nat} {r : FaultRecord}
    (hr : records.getD i none = some r) (hid : r.entryId = none) (x : Nat) :
    x ∈ recordIds (records.set i (some { r with entryId := some id })) ↔ x ∈ recordIds records ∨ x = id := by
  have hi := lt_length_of_getD_some hr
  have hat : records[i] = some r := by simpa [List.getD, hi] using hr
  have hsplit := List.take_concat_get' records i hi
  have hrec : records = records.take i ++ some r :: records.drop (i + 1) := by
    rw [← hat, ← List.drop_eq_getElem_cons hi, List.take_append_drop]
  have hset : records.set i (some { r with entryId := some id }) =
      records.take i ++ some { r with entryId := some id } :: records.drop (i + 1) :=
    List.set_eq_take_append_cons_drop .. |>.trans (if_pos hi)
  rw [hset]
  conv_rhs => rw [hrec]
  simp only [recordIds, List.filterMap_append, List.filterMap_cons, Option.bind_some, hid, List.mem_append,
    List.mem_cons]
  tauto

/-- The candidates that need an id take them in order of rank, and the counter goes on behind the last (R128). -/
theorem foldl_placeCandidate_ids (p : Params) (old : List DisplayEntry) (kept : List Nat) {ks : List Candidate}
    {b : Rebuild} {ids : List Nat} (ha : ks.Pairwise Apart) (h : ∀ k ∈ ks, HasPlace old b.records k)
    (hids : ids = assignIds (kept ++ recordIds b.records) b.counter (ks.filter (needsId b.records)).length) :
    (ks.foldl (placeCandidate p old kept) b).counter = counterAfter b.counter ids ids.length ∧
      ∀ (n : Nat) (k : Candidate) (id : Nat), (ks.filter (needsId b.records))[n]? = some k → ids[n]? = some id →
        ((ks.foldl (placeCandidate p old kept) b).records.getD k.index none).bind (·.entryId) = some id := by
  induction ks generalizing b ids with
  | nil =>
    subst hids
    exact ⟨rfl, fun n k id hk => by simp at hk⟩
  | cons k ks ih =>
    obtain ⟨hk, hks⟩ := List.pairwise_cons.1 ha
    have hplace : ∀ x ∈ ks, HasPlace old (placeCandidate p old kept b k).records x :=
      fun x hx => (h x (List.mem_cons_of_mem k hx)).after (hk x hx)
    have hneeds : ks.filter (needsId (placeCandidate p old kept b k).records) = ks.filter (needsId b.records) :=
      List.filter_congr fun x hx => needsId_after (hk x hx)
    have ih := @ih (placeCandidate p old kept b k)
    rw [hneeds] at ih
    rw [List.foldl_cons]
    cases hn : needsId b.records k with
    | false =>
      have hsame : (placeCandidate p old kept b k).records = b.records ∧
          (placeCandidate p old kept b k).counter = b.counter := by
        obtain ⟨hres, hlive⟩ := h k List.mem_cons_self
        cases hkr : k.resolved with
        | true =>
          obtain ⟨e, he⟩ := hres hkr
          rw [placeCandidate_resolved hkr he]
          exact ⟨rfl, rfl⟩
        | false =>
          obtain ⟨r, hr⟩ := hlive hkr
          obtain ⟨id, hid⟩ : ∃ id, r.entryId = some id := by
            rw [needsId, hkr, hr] at hn
            exact Option.isSome_iff_exists.1 (by simpa using hn)
          rw [placeCandidate_held hkr hr hid]
          exact ⟨rfl, rfl⟩
      rw [List.filter_cons_of_neg (by simp [hn])] at hids ⊢
      obtain ⟨hrec, hcount⟩ := hsame
      rw [hrec, hcount] at ih
      exact ih hks (hrec ▸ hplace) hids
    | true =>
      obtain ⟨hkr, r, hr, hid⟩ : k.resolved = false ∧ ∃ r, b.records.getD k.index none = some r ∧ r.entryId = none := by
        simpa [needsId, Option.any_eq_true] using hn
      rw [List.filter_cons_of_pos hn] at hids ⊢
      obtain ⟨id, hfree⟩ : ∃ id, id = freeId (kept ++ recordIds b.records) 255 b.counter := ⟨_, rfl⟩
      have hb := placeCandidate_fresh (p := p) (old := old) (kept := kept) hkr hr hid hfree
      rw [List.length_cons, assignIds, ← hfree] at hids
      have hrest := ih (ids := assignIds (kept ++ recordIds b.records ++ [id]) (nextId id)
        (ks.filter (needsId b.records)).length) hks hplace (by
          rw [hb]
          exact assignIds_congr (fun x => by simp [mem_recordIds_set hr hid]) _ _)
      obtain ⟨hcount, hgiven⟩ := hrest
      subst hids
      refine ⟨?_, fun n x m hx hm => ?_⟩
      · rw [hcount, hb, List.length_cons, counterAfter_cons]
      · cases n with
        | zero =>
          simp only [List.getElem?_cons_zero, Option.some.injEq] at hx hm
          subst hx hm
          rw [foldl_placeCandidate_other p old kept _ fun y hy => ?_, hb, getD_set_self hr]
          · rfl
          · cases hyr : y.resolved with
            | true => exact .inl rfl
            | false => exact .inr (hk y hy hkr hyr).symm
        | succ n => exact hgiven n x m hx hm

/-! ### The candidates of a table and a list -/

/-- The candidate a position of the table gives. -/
def liveCandidate (p : Params) (x : Option FaultRecord × Nat) : Option Candidate :=
  x.1.bind fun r =>
    if r.state = .suspect then none
    else some { severity := recordSeverity p r, sequence := (r.sequence.getD 0).toNat, resolved := false, index := x.2 }

theorem liveCandidates_eq (p : Params) (records : List (Option FaultRecord)) :
    liveCandidates p records = records.zipIdx.filterMap (liveCandidate p) := by
  refine List.filterMap_congr fun x _ => ?_
  obtain ⟨o, i⟩ := x
  cases o with
  | none => rfl
  | some r => cases hr : r.state <;> simp [liveCandidate, FaultRecord.live, recordSequence, hr]

theorem liveCandidate_some {p : Params} {x : Option FaultRecord × Nat} {k : Candidate} (h : liveCandidate p x = some k) :
    k.resolved = false ∧ k.index = x.2 ∧ ∃ r, x.1 = some r := by
  obtain ⟨r, hr, hk⟩ := Option.bind_eq_some_iff.1 h
  split at hk
  · exact absurd hk nofun
  · exact Option.some.inj hk ▸ ⟨rfl, rfl, r, hr⟩

theorem mem_liveCandidates {p : Params} {records : List (Option FaultRecord)} {k : Candidate}
    (h : k ∈ liveCandidates p records) : k.resolved = false ∧ ∃ r, records.getD k.index none = some r := by
  rw [liveCandidates_eq] at h
  obtain ⟨⟨o, i⟩, hx, hk⟩ := List.mem_filterMap.1 h
  obtain ⟨hres, hindex, r, hr⟩ := liveCandidate_some hk
  refine ⟨hres, r, ?_⟩
  rw [hindex, List.getD, List.mem_zipIdx_iff_getElem?.1 hx]
  exact hr

theorem mem_resolvedCandidates {list : List DisplayEntry} {k : Candidate} (h : k ∈ resolvedCandidates list) :
    k.resolved = true ∧ ∃ e, (list.find? fun e => !e.live && e.id = k.index) = some e := by
  obtain ⟨e, he, rfl⟩ := List.mem_map.1 h
  obtain ⟨hmem, hl⟩ := List.mem_filter.1 he
  refine ⟨rfl, Option.isSome_iff_exists.1 (List.find?_isSome.2 ⟨e, hmem, ?_⟩)⟩
  simpa using hl

theorem liveCandidates_apart (p : Params) (records : List (Option FaultRecord)) :
    (liveCandidates p records).Pairwise Apart := by
  have hnodup : records.zipIdx.Pairwise fun x y => x.2 ≠ y.2 := by
    have h := List.nodup_range' (s := 0) (n := records.length) (step := 1)
    rw [← List.zipIdx_map_snd] at h
    exact List.pairwise_map.1 h
  rw [liveCandidates_eq]
  refine List.pairwise_filterMap.2 (hnodup.imp fun {x y} hne a ha b hb _ _ => ?_)
  rw [(liveCandidate_some ha).2.1, (liveCandidate_some hb).2.1]
  exact hne

theorem rankedCandidates_placed (p : Params) (records : List (Option FaultRecord)) (list : List DisplayEntry) :
    (rankedCandidates p records list).Pairwise Apart ∧
      ∀ k ∈ rankedCandidates p records list, HasPlace list records k := by
  have hperm := List.perm_insertionSort (fun a b => ranksBefore a b = true)
    (liveCandidates p records ++ resolvedCandidates list)
  refine ⟨?_, fun k hk => ?_⟩
  · refine (hperm.pairwise_iff fun {a b} h hb ha => (h ha hb).symm).2 (List.pairwise_append.2 ⟨?_, ?_, ?_⟩)
    · exact liveCandidates_apart p records
    · exact List.pairwise_of_forall_mem_list fun a ha b _ h => absurd ((mem_resolvedCandidates ha).1.symm.trans h) nofun
    · exact fun a _ b hb _ h => absurd ((mem_resolvedCandidates hb).1.symm.trans h) nofun
  · rcases List.mem_append.1 (hperm.mem_iff.1 hk) with h | h
    · obtain ⟨hres, hr⟩ := mem_liveCandidates h
      exact ⟨fun h => absurd (hres.symm.trans h) nofun, fun _ => hr⟩
    · obtain ⟨hres, he⟩ := mem_resolvedCandidates h
      exact ⟨fun _ => he, fun h => absurd (hres.symm.trans h) nofun⟩

theorem resolvedCandidates_eq (list : List DisplayEntry) :
    resolvedCandidates list = (list.filter fun e => e.state = .resolved).map fun e =>
      { severity := 0, sequence := e.sequence, resolved := true, index := e.id } := by
  refine congrArg (List.map _) (List.filter_congr fun e _ => ?_)
  cases he : e.state <;> simp [DisplayEntry.live, he]

theorem find_resolved (list : List DisplayEntry) (id : Nat) :
    (list.find? fun e => !e.live && e.id = id) = list.find? fun e => decide (e.state = .resolved ∧ e.id = id) := by
  refine congrArg (fun q => list.find? q) (funext fun e => ?_)
  cases he : e.state <;> simp [DisplayEntry.live, he]

theorem find_live (list : List DisplayEntry) (id : Nat) :
    (list.find? fun e => e.live && e.id = id) = list.find? fun e => decide (e.state ≠ .resolved ∧ e.id = id) := by
  refine congrArg (fun q => list.find? q) (funext fun e => ?_)
  cases he : e.state <;> simp [DisplayEntry.live, he]

theorem stayedEntry_eq (p : Params) (old : List DisplayEntry) (id : Nat) (r : FaultRecord) :
    (∀ e, old.find? (fun e => decide (e.state ≠ .resolved ∧ e.id = id)) = some e →
      stayedEntry p old id r = { e with severity := recordSeverity p r }) ∧
    (old.find? (fun e => decide (e.state ≠ .resolved ∧ e.id = id)) = none → stayedEntry p old id r = entryOf p id r) := by
  unfold stayedEntry
  rw [find_live]
  exact ⟨fun e he => by simp only [he], fun h => by simp only [h]⟩

end Sys2Proof.Machine

end


/-! ### A re-evaluation's list -/

section

/-! PROOFS. O60. -/

namespace Sys2Proof.Machine

/-! ### A rebuilt list (R126 to R128) -/

section

variable (p : Params) (f : Flt) (d : Dsr)

/-- The candidates taken: the first eight. -/
def takenCandidates : List Candidate := (rankedCandidates p f.records d.list).take 8

/-- The ids of the RESOLVED entries that stay, and those of the records. -/
def idsInUse : List Nat :=
  ((takenCandidates p f d).filter (·.resolved)).map (·.index) ++ recordIds f.records

/-- The taken candidates that need an id. -/
def freshCandidates : List Candidate := (takenCandidates p f d).filter (needsId f.records)

/-- The ids they are given. -/
def freshIds : List Nat := assignIds (idsInUse p f d) d.idCounter (freshCandidates p f d).length

theorem takenCandidates_placed :
    (takenCandidates p f d).Pairwise Apart ∧ ∀ k ∈ takenCandidates p f d, HasPlace d.list f.records k := by
  obtain ⟨ha, hp⟩ := rankedCandidates_placed p f.records d.list
  exact ⟨ha.sublist (List.take_sublist 8 _), fun k hk => hp k (List.mem_of_mem_take hk)⟩

theorem rebuildList_takes :
    List.Forall₂ (TakenAs p d.list f.records (rebuildList p f d).1.records) (takenCandidates p f d)
      (rebuildList p f d).2.list := by
  obtain ⟨ha, hp⟩ := takenCandidates_placed p f d
  obtain ⟨es, hes, hall⟩ := foldl_placeCandidate_takes p (((takenCandidates p f d).filter (·.resolved)).map (·.index))
    (b := { records := f.records, counter := d.idCounter, entries := [] }) ha hp
  have hlist : (rebuildList p f d).2.list = es := hes
  rw [hlist]
  exact hall

theorem rebuildList_other {i : Nat} (h : ∀ k ∈ takenCandidates p f d, k.resolved = true ∨ k.index ≠ i) :
    recordAt (rebuildList p f d).1 i = recordAt f i :=
  foldl_placeCandidate_other p d.list _ { records := f.records, counter := d.idCounter, entries := [] } h

theorem rebuildList_ids :
    (rebuildList p f d).2.idCounter = counterAfter d.idCounter (freshIds p f d) (freshIds p f d).length ∧
      ∀ (n : Nat) (k : Candidate) (id : Nat), (freshCandidates p f d)[n]? = some k →
        (freshIds p f d)[n]? = some id →
        (recordAt (rebuildList p f d).1 k.index).bind (·.entryId) = some id := by
  obtain ⟨ha, hp⟩ := takenCandidates_placed p f d
  exact foldl_placeCandidate_ids p d.list _ (b := { records := f.records, counter := d.idCounter, entries := [] })
    ha hp rfl

/-- With 32 positions, 8 entries and as many new ids, the 255 ids are never all in use. -/
theorem idsInUse_length (h : f.records.length = 32) (n : Nat) :
    (idsInUse p f d ++ (freshIds p f d).take n).length < 255 := by
  have h8 : (takenCandidates p f d).length ≤ 8 := List.length_take_le ..
  have hkept := List.length_filter_le (·.resolved) (takenCandidates p f d)
  have hrec := List.length_filterMap_le (fun o : Option FaultRecord => o.bind (·.entryId)) f.records
  have hfresh := List.length_filter_le (needsId f.records) (takenCandidates p f d)
  have hids : ((freshIds p f d).take n).length ≤ (freshCandidates p f d).length :=
    (List.length_take_le' ..).trans (assignIds_length ..).le
  simp only [idsInUse, freshCandidates, recordIds, List.length_append, List.length_map] at *
  omega

theorem counterAfter_range {counter : Nat} (h1 : 1 ≤ counter) (h2 : counter ≤ 255) (ids : List Nat) (n : Nat) :
    1 ≤ counterAfter counter ids n ∧ counterAfter counter ids n ≤ 255 := by
  cases n with
  | zero => exact ⟨h1, h2⟩
  | succ n => exact nextId_range _

variable {p f d}

/-- An id assigned is one of 1 to 255 that no record and no entry that stays has. -/
theorem freshIds_unused {k : Candidate} {id : Nat} (hk : k ∈ freshCandidates p f d)
    (hid : (recordAt (rebuildList p f d).1 k.index).bind (·.entryId) = some id) (h : f.records.length = 32)
    (h1 : 1 ≤ d.idCounter) (h2 : d.idCounter ≤ 255) : 1 ≤ id ∧ id ≤ 255 ∧ id ∉ idsInUse p f d := by
  obtain ⟨n, hn, hat⟩ := List.mem_iff_getElem.1 hk
  have hlen : n < (freshIds p f d).length := by rwa [freshIds, assignIds_length]
  have hgiven := (rebuildList_ids p f d).2 n k _ (by rw [List.getElem?_eq_getElem hn, hat])
    (List.getElem?_eq_getElem hlen)
  have hsame : (freshIds p f d)[n] = id := Option.some.inj (hgiven.symm.trans hid)
  have hfree := (assignIds_at (List.getElem?_eq_getElem hlen)).1
  rw [hsame] at hfree
  obtain ⟨l, u⟩ := counterAfter_range h1 h2 (freshIds p f d) n
  obtain ⟨hl, hu⟩ := freeId_range l u (idsInUse_length p f d h n)
  obtain ⟨hnot, -⟩ := freeId_first l u (idsInUse_length p f d h n)
  exact ⟨hl.trans_eq hfree.symm, hfree.le.trans hu,
    fun hm => hnot (hfree ▸ List.mem_append_left _ hm)⟩

theorem notMem_idsInUse {id : Nat} (h : id ∉ idsInUse p f d) :
    (∀ x, some x ∈ f.records → x.entryId ≠ some id) ∧ ∀ q ∈ takenCandidates p f d, q.resolved = true → q.index ≠ id := by
  refine ⟨fun x hx he => h (List.mem_append_right _ ?_), fun q hq hr he => h (List.mem_append_left _ ?_)⟩
  · exact List.mem_filterMap.2 ⟨some x, hx, he⟩
  · exact List.mem_map.2 ⟨q, List.mem_filter.2 ⟨hq, hr⟩, he⟩

theorem freshCandidates_mem {k : Candidate} {r : FaultRecord} (hk : k ∈ takenCandidates p f d) (hl : k.resolved = false)
    (hr : recordAt f k.index = some r) (hid : r.entryId = none) : k ∈ freshCandidates p f d := by
  refine List.mem_filter.2 ⟨hk, ?_⟩
  have hr : f.records.getD k.index none = some r := hr
  rw [needsId, hl, hr]
  simp [hid]

end

theorem rebuildList_live {p : Params} {f : Flt} {d : Dsr} {n : Nat} {k : Candidate}
    (hn : (takenCandidates p f d)[n]? = some k) (hl : k.resolved = false) :
    ∃ r id, recordAt f k.index = some r ∧
      recordAt (rebuildList p f d).1 k.index = some { r with entryId := some id } ∧
      (∀ m, r.entryId = some m → id = m ∧
        (∀ e, d.list.find? (fun e => decide (e.state ≠ .resolved ∧ e.id = id)) = some e →
          (rebuildList p f d).2.list[n]? = some { e with severity := recordSeverity p r }) ∧
        (d.list.find? (fun e => decide (e.state ≠ .resolved ∧ e.id = id)) = none →
          (rebuildList p f d).2.list[n]? = some (entryOf p id r))) ∧
      (r.entryId = none → (rebuildList p f d).2.list[n]? = some (entryOf p id r) ∧
        (f.records.length = 32 → 1 ≤ d.idCounter → d.idCounter ≤ 255 →
          1 ≤ id ∧ id ≤ 255 ∧ (∀ x, some x ∈ f.records → x.entryId ≠ some id) ∧
          ∀ q ∈ takenCandidates p f d, q.resolved = true → q.index ≠ id)) := by
  have hall := rebuildList_takes p f d
  obtain ⟨hi, rfl⟩ := List.getElem?_eq_some_iff.1 hn
  have hj : n < (rebuildList p f d).2.list.length := hall.length_eq ▸ hi
  obtain ⟨r, id, hr, hr', hheld, hfresh⟩ := (hall.get hi hj).2 hl
  have hat := List.getElem?_eq_getElem hj
  refine ⟨r, id, hr, hr', fun m hm => ?_, fun hnone => ⟨?_, fun h32 h1 h2 => ?_⟩⟩
  · obtain ⟨hid, he⟩ := hheld m hm
    obtain ⟨hfound, hmissing⟩ := stayedEntry_eq p d.list id r
    exact ⟨hid, fun e h => hat.trans (congrArg some (he.trans (hfound e h))),
      fun h => hat.trans (congrArg some (he.trans (hmissing h)))⟩
  · exact hat.trans (congrArg some (hfresh hnone))
  · have hk := freshCandidates_mem (List.getElem_mem hi) hl hr hnone
    obtain ⟨hl, hu, hnot⟩ := freshIds_unused hk ((congrArg (Option.bind · _) hr').trans rfl) h32 h1 h2
    obtain ⟨hrec, hkept⟩ := notMem_idsInUse hnot
    exact ⟨hl, hu, hrec, hkept⟩

/-- Settles O60: the list and the ids by induction along the taken candidates, and the free id by counting that 255
steps forward meet 255 different ids. -/
theorem candidatesStandInOneOrder : Obligations.CandidatesStandInOneOrder := by
  unfold Obligations.CandidatesStandInOneOrder
  refine ⟨fun a b => ?_, fun _ _ => ranked_of_perm, fun p f d => ?_, fun used n h1 h2 h => freeId_first h1 h2 h,
    fun before s => ⟨_, rfl, (reevaluate_sends rfl).1, (reevaluate_sends rfl).2⟩, fun list mine look t => telltales_iff⟩
  · refine ⟨?_, ?_, ?_, ?_, ranksBefore_total a b, ranksBefore_antisymm, fun d => ranksBefore_trans⟩
    all_goals
      rw [ranksBefore_iff]
      simp +contextual [Nat.le_of_lt]
  · obtain ⟨hcount, hids⟩ := rebuildList_ids p f d
    refine ⟨rankedCandidates p f.records d.list, (rebuildList p f d).1, (rebuildList p f d).2, rfl,
      ranked_pairwise _, ?_, ?_, rfl, rebuildList_contents p f d, rfl, rfl, rfl, fun i => rebuildList_other p f d,
      fun n k hn hr => ?_, fun n k hn hl => rebuildList_live hn hl, freshCandidates p f d, freshIds p f d,
      idsInUse p f d, counterAfter d.idCounter (freshIds p f d), ?_, rfl, rfl, fun n id hn => assignIds_at hn,
      assignIds_length _ _ _, hcount, hids⟩
    · have h := List.perm_insertionSort (fun a b => ranksBefore a b = true)
        (liveCandidates p f.records ++ resolvedCandidates d.list)
      rw [liveCandidates_eq, resolvedCandidates_eq] at h
      exact (by rw [rankedCandidates, liveCandidates_eq, resolvedCandidates_eq]; exact h)
    · rw [← (rebuildList_takes p f d).length_eq, takenCandidates, List.length_take, Nat.min_comm]
    · obtain ⟨hi, rfl⟩ := List.getElem?_eq_some_iff.1 hn
      have hj : n < (rebuildList p f d).2.list.length := (rebuildList_takes p f d).length_eq ▸ hi
      rw [List.getElem?_eq_getElem hj, ← find_resolved]
      exact (((rebuildList_takes p f d).get hi hj).1 hr).symm
    · rfl

end Sys2Proof.Machine

end


/-! ### Offers: what is held, what is judged, and the judgement instant -/

section

/-! PROOFS. O42. -/

namespace Sys2Proof.Machine

/-! ### The offer and its cause (R83) -/

theorem outOfWindow_iff (v : Nat) : outOfWindow v = true ↔ v < 16000 ∨ 32000 < v := by
  simp only [outOfWindow, Bool.or_eq_true, decide_eq_true_eq]
  exact Iff.rfl

theorem outOfWindow_eq (v : Nat) : outOfWindow v = decide (v < 16000 ∨ 32000 < v) :=
  (Bool.eq_iff_iff.2 ((outOfWindow_iff v).trans decide_eq_true_iff.symm))

theorem heldCause_eq (running : Bool) (volts : Nat) (a : Action) :
    heldCause running volts a =
      if running then HeldCause.census
      else if volts < 16000 ∨ 32000 < volts then .voltage
      else if a = .hold then .rule else .none := by
  simp only [heldCause, outOfWindow_iff]

/-- The judgement of an offer that nothing holds (R84). -/
def judgementOf (o : Offer) (s : State) : Judgement :=
  judgement (levelsOf s.params o.circuit (chooseAction s.jge.rules s.hlc.word o.circuit).2) o (slotViews s o)
    (remainderView s o.circuit)

/-- The cause an offer is held by. -/
def heldOf (o : Offer) (s : State) : HeldCause :=
  heldCause s.clc.census.isSome o.volts (chooseAction s.jge.rules s.hlc.word o.circuit).1

/-- The summary an offer leaves, its judgement's part where nothing holds it (R85). -/
def summaryLeft (o : Offer) (s : State) : Summary :=
  { time := o.time, mean := o.mean, zero := o.zero, volts := o.volts, saturated := o.saturated, parked := o.parked
    measured := measured o, action := (chooseAction s.jge.rules s.hlc.word o.circuit).1
    factor := (chooseAction s.jge.rules s.hlc.word o.circuit).2, held := heldOf o s
    residual := if heldOf o s = .none then some (judgementOf o s).residual else none
    expectation := if heldOf o s = .none then (judgementOf o s).expectation else none
    pool := if heldOf o s = .none then (judgementOf o s).pool else .absent
    poolSubject := if heldOf o s = .none then (judgementOf o s).subject else none }

section

variable {o : Offer} {s t : State}

theorem summaryLeft_held (h : heldOf o s ≠ .none) :
    summaryLeft o s =
      { time := o.time, mean := o.mean, zero := o.zero, volts := o.volts, saturated := o.saturated, parked := o.parked
        measured := measured o, action := (chooseAction s.jge.rules s.hlc.word o.circuit).1
        factor := (chooseAction s.jge.rules s.hlc.word o.circuit).2, held := heldOf o s, residual := none
        expectation := none, pool := .absent, poolSubject := none } := by
  simp only [summaryLeft, if_neg h]

theorem summaryLeft_made (h : heldOf o s = .none) :
    summaryLeft o s =
      { time := o.time, mean := o.mean, zero := o.zero, volts := o.volts, saturated := o.saturated, parked := o.parked
        measured := measured o, action := (chooseAction s.jge.rules s.hlc.word o.circuit).1
        factor := (chooseAction s.jge.rules s.hlc.word o.circuit).2, held := .none
        residual := some (judgementOf o s).residual, expectation := (judgementOf o s).expectation
        pool := (judgementOf o s).pool, poolSubject := (judgementOf o s).subject } := by
  simp only [summaryLeft, h, if_true]

theorem takeOffer_result : (takeOffer o s).result = if heldOf o s = .none then some (judgementOf o s) else none := rfl

theorem summaryOf_takeOffer (o : Offer) (s : State) : summaryOf o (takeOffer o s) = summaryLeft o s := by
  simp only [summaryOf, summaryLeft, takeOffer_result]
  by_cases h : heldOf o s = .none
  · simp only [h, if_pos]
    rw [← h]
    rfl
  · simp only [h, if_false]
    rfl

/-- What of a state an offer is taken by. -/
structure SameReads (s t : State) : Prop where
  rules : t.jge.rules = s.jge.rules
  word : t.hlc.word = s.hlc.word
  census : t.clc.census.isSome = s.clc.census.isSome
  table : t.clc.table = s.clc.table
  params : t.params = s.params
  tracked : ∀ i, trackedAt t.params t.ldt o.circuit (servingIndex t.ldt i) =
    trackedAt s.params s.ldt o.circuit (servingIndex s.ldt i)

theorem SameReads.views (h : SameReads (o := o) s t) :
    slotViews t o = slotViews s o ∧ remainderView t o.circuit = remainderView s o.circuit := by
  refine ⟨?_, h.tracked .remainder⟩
  unfold slotViews
  rw [h.table]
  refine List.map_congr_left fun x _ => ?_
  simp only [slotView, h.tracked]

theorem SameReads.held (h : SameReads (o := o) s t) : heldOf o t = heldOf o s := by
  simp only [heldOf, h.rules, h.word, h.census]

theorem SameReads.judgement (h : SameReads (o := o) s t) : judgementOf o t = judgementOf o s := by
  simp only [judgementOf, h.rules, h.word, h.params, h.views.1, h.views.2]

theorem SameReads.summary (h : SameReads (o := o) s t) : summaryLeft o t = summaryLeft o s := by
  simp only [summaryLeft, h.held, h.judgement, h.rules, h.word]

/-! ### What an offer does (R84, R85, R99, R100) -/

theorem judgeOffer_held (h : heldOf o s ≠ .none) :
    judgeOffer o s = (setSummary o.circuit (summaryLeft o s) s, []) := by
  simp only [judgeOffer, takeOffer_result, if_neg h, summaryOf_takeOffer]

theorem judgeOffer_made (h : heldOf o s = .none) :
    judgeOffer o s =
      (commitFaults (applyBatch s.params (judgementOf o s).batch s.flt).1 (setSummary o.circuit (summaryLeft o s) s),
        (applyBatch s.params (judgementOf o s).batch s.flt).2) := by
  simp only [judgeOffer, takeOffer_result, if_pos h, summaryOf_takeOffer]
  rfl

theorem judge_held (h : heldOf o s ≠ .none) : judge o s = setSummary o.circuit (summaryLeft o s) s := by
  simp only [judge, judgeOffer_held h, handValues, takeOffer_result, if_neg h]
  rfl

/-- Of the Power Controller's state the reports of a hand-over write the wake causes. -/
theorem reportActivations_pwc (es : List FltEffect) (s : State) :
    (reportActivations es s).pwc =
      { s.pwc with
        wakeFlags := (reportActivations es s).pwc.wakeFlags, wakeRecord := (reportActivations es s).pwc.wakeRecord } := by
  induction es generalizing s with
  | nil => rfl
  | cons e es ih =>
    cases e with
    | removed r b => exact ih s
    | activated r =>
      have hrest := ih (reportWake (faultReport r) s)
      have hfirst : (reportWake (faultReport r) s).pwc =
          { s.pwc with
            wakeFlags := (reportWake (faultReport r) s).pwc.wakeFlags
            wakeRecord := (reportWake (faultReport r) s).pwc.wakeRecord } := by
        unfold reportWake
        split <;> rfl
      rw [hfirst] at hrest
      exact hrest

theorem onFaults_standbyEntry (op : Flt → FltStep) (s : State) :
    (onFaults op s).pwc.standbyEntry = s.pwc.standbyEntry := by
  rw [onFaults_pwc, reportActivations_pwc, commitFaults_pwc]

/-- An offer that nothing holds gives its summary and its batch, and then its learning and capture values. -/
theorem judge_made (h : heldOf o s = .none) :
    judge o s =
      { onFaults (applyBatch s.params (judgementOf o s).batch) (setSummary o.circuit (summaryLeft o s) s) with
        ldt := if s.pwc.standbyEntry then s.ldt
          else learnAll s.params o (slotViews s o) (remainderView s o.circuit) (judgementOf o s).residual s.ldt
        svc := captureAll s.params o (slotViews s o) (remainderView s o.circuit) (judgementOf o s).residual s.svc } := by
  have hon : handOver (judgeOffer o s).2 (judgeOffer o s).1 =
      onFaults (applyBatch s.params (judgementOf o s).batch) (setSummary o.circuit (summaryLeft o s) s) := by
    rw [judgeOffer_made h]
    rfl
  have hviews : (takeOffer o s).views = slotViews s o := rfl
  simp only [judge, handValues, takeOffer_result, if_pos h, Option.isSome_some, if_true, hon, onFaults_standbyEntry,
    hviews]
  rw [onFaults_eq]
  rfl

/-- The records after an offer are those its batch leaves, if it is judged, and those before it otherwise. -/
theorem judge_faults (o : Offer) (s : State) :
    recordContents (judge o s).flt =
      recordContents (applyBatch s.params (if heldOf o s = .none then (judgementOf o s).batch else []) s.flt).1 ∧
    (judge o s).flt.activation =
      (applyBatch s.params (if heldOf o s = .none then (judgementOf o s).batch else []) s.flt).1.activation ∧
    (judge o s).flt.saturated =
      (applyBatch s.params (if heldOf o s = .none then (judgementOf o s).batch else []) s.flt).1.saturated := by
  by_cases h : heldOf o s = .none
  · rw [if_pos h, judge_made h]
    refine ⟨onFaults_contents _ _, ?_, ?_⟩
    all_goals
      simp only [onFaults, handOver]
      rw [handOverWith_flt, commitFaults_flt]
      rfl
  · rw [if_neg h, judge_held h]
    exact ⟨rfl, rfl, rfl⟩

theorem judge_summaries (o : Offer) (s : State) :
    (judge o s).jge = { s.jge with summaries := s.jge.summaries.set o.circuit (some (summaryLeft o s)) } := by
  by_cases h : heldOf o s = .none
  · rw [judge_made h, onFaults_eq]
    rfl
  · rw [judge_held h]
    rfl

theorem judge_only_made (o : Offer) (s : State) : OnlyChanges [.jge, .flt, .ldt, .dsr, .svc, .hlc, .pwc] s (judge o s) := by
  rw [judge_eq]
  exact .of_fields

theorem judge_only_held (h : heldOf o s ≠ .none) : OnlyChanges [.jge] s (judge o s) := by
  rw [judge_held h]
  exact .of_fields (hjge := fun h => absurd (List.mem_singleton.2 rfl) h)

end

/-! ### A judgement instant (R9 to R11) -/

/-- A completed window: the next one set, the mark, and VOLTAGE left set by an offer out of the voltage window. -/
def windowTaken (c : Circuit) (w : Window) (t : Nat) (s : State) : State :=
  offerVoltage (offerOf c w t (s.sfe.circuits.get c))
    (setSenseSat c w.saturated
      (setCircuit c { s.sfe.circuits.get c with done := none, nextStart := some (nextWindowStart s.params t) } s))

section

variable (c : Circuit) (w : Window) (t : Nat) (s : State)

theorem completeJudgement_eq :
    completeJudgement c w t s = judge (offerOf c w t (s.sfe.circuits.get c)) (windowTaken c w t s) := rfl

theorem windowTaken_eq :
    windowTaken c w t s =
      { s with
        sfe := { s.sfe with
          circuits := s.sfe.circuits.set c
            { s.sfe.circuits.get c with
              done := none, nextStart := some (nextWindowStart s.params t), senseSat := w.saturated }
          voltage := s.sfe.voltage || outOfWindow w.supplyMean
          voltageMark := if outOfWindow w.supplyMean then some t else s.sfe.voltageMark }
        hlc := { s.hlc with changes := (windowTaken c w t s).hlc.changes } } := by
  have hvolts : (offerOf c w t (s.sfe.circuits.get c)).volts = w.supplyMean := rfl
  unfold windowTaken offerVoltage
  rw [hvolts]
  cases hout : outOfWindow w.supplyMean <;>
    simp [setVoltage, setSenseSat, setCircuit, markIf_eq, set_set, offerOf]

theorem windowTaken_reads : SameReads (o := offerOf c w t (s.sfe.circuits.get c)) s (windowTaken c w t s) := by
  rw [windowTaken_eq]
  exact ⟨rfl, rfl, rfl, rfl, rfl, fun _ => rfl⟩

theorem windowTaken_only : OnlyChanges [.sfe, .hlc] s (windowTaken c w t s) := by
  rw [windowTaken_eq]
  exact .of_fields

end

/-- Settles O42: the window taken, and then its offer, held or judged. -/
theorem aJudgementInstantJudgesItsOffer : Obligations.AJudgementInstantJudgesItsOffer := by
  intro c w d x s hh hx hph hd
  subst hx
  obtain ⟨o, ho⟩ : ∃ o, o = offerOf c w d (s.sfe.circuits.get c) := ⟨_, rfl⟩
  obtain ⟨r, hr⟩ : ∃ r, r = reach d s := ⟨_, rfl⟩
  obtain ⟨v, hv⟩ : ∃ v, v = windowTaken c w d r := ⟨_, rfl⟩
  have hor : o = offerOf c w d (r.sfe.circuits.get c) := by rw [ho, hr]; rfl
  have hwork : exec (.judgementInstant c) s = .next (finish (judge o v)) := by
    refine congrArg Host.Outcome.next ((event_released _ s hh).trans (congrArg finish ?_))
    simp only [hph, hd]
    rw [completeJudgement_eq, hor, hv, hr]
  have hsame : SameReads (o := o) s v := by
    have h := windowTaken_reads c w d r
    rw [← hor, ← hv] at h
    obtain ⟨h1, h2, h3, h4, h5, h6⟩ := h
    subst hr
    exact ⟨h1, h2, h3, h4, h5, h6⟩
  have hrv : OnlyChanges [.now, .sfe, .hlc] s v := by
    have h1 : OnlyChanges [.now] s r := hr ▸ OnlyChanges.of_fields
    exact (h1.trans (hv ▸ windowTaken_only c w d r)).mono (by decide)
  have hvs : (judge o v).sfe = (windowTaken c w d r).sfe := by rw [judge_eq, hv]
  rw [windowTaken_eq, hr] at hvs
  have hvolts : o.volts = w.supplyMean := congrArg Offer.volts ho
  have hoc : o.circuit = c := congrArg Offer.circuit ho
  have hjge : (judge o v).jge = { s.jge with summaries := s.jge.summaries.set c (some (summaryLeft o s)) } := by
    rw [judge_summaries, hsame.summary, hoc, show v.jge = s.jge from hrv .jge (by decide)]
  have hflt : v.flt = s.flt := hrv .flt (by decide)
  obtain ⟨hcontents, hactivation, -⟩ := judge_faults o v
  rw [hsame.held, hsame.judgement, hsame.params, hflt] at hcontents hactivation
  refine ⟨judge o v, o, chooseAction s.jge.rules s.hlc.word c, heldOf o s, hwork, ho, rfl, ?_, ?_, ?_,
    fun e he => ⟨?_, ?_⟩, fun h => ⟨?_, ?_⟩, fun h1 h2 => ?_, ?_, ?_, fun h => ⟨?_, ?_⟩, fun h => ?_⟩
  · rw [heldOf, hoc, heldCause_eq]
  · rw [judge_eq, hv, windowTaken_eq, hr]
    rfl
  · rw [hvs]
    exact PerCircuit.get_set_same _ _ _
  · rw [hvs]
    exact PerCircuit.get_set_other _ _ _ _ he
  · rw [hjge]
    exact PerCircuit.get_set_other _ _ _ _ he
  · rw [hvs]
    simp [(outOfWindow_iff _).2 (hvolts ▸ h)]
  · rw [hvs]
    simp [(outOfWindow_iff _).2 (hvolts ▸ h)]
  · rw [hvs]
    have hin : outOfWindow w.supplyMean = false := by
      rw [← hvolts, outOfWindow_eq, decide_eq_false_iff_not]
      omega
    simp [hin]
  · rw [hjge]
  · rw [hjge]
  · rw [hjge, PerCircuit.get_set_same, summaryLeft_held h, hoc, ho]
    rfl
  · exact (hrv.trans (judge_only_held (hsame.held.symm ▸ h))).mono (by decide)
  · have hheld : heldOf o v = .none := hsame.held.trans h
    rw [if_pos h] at hcontents hactivation
    refine ⟨judgementOf o s, ?_, ?_, hcontents, hactivation, ?_, ?_, ?_⟩
    · rw [judgementOf, hoc]
      rfl
    · rw [hjge, PerCircuit.get_set_same, summaryLeft_made h, hoc, ho]
      rfl
    · rw [judge_made hheld, hsame.judgement, hsame.views.1, hsame.views.2, hsame.params, hoc,
        show v.pwc = s.pwc from hrv .pwc (by decide), show v.ldt = s.ldt from hrv .ldt (by decide)]
    · rw [judge_made hheld, hsame.judgement, hsame.views.1, hsame.views.2, hsame.params, hoc,
        show v.svc = s.svc from hrv .svc (by decide)]
    · exact (hrv.trans (judge_only_made o v)).mono (by decide)

end Sys2Proof.Machine

end


/-! ### Tables alike but for what the display has written -/

section

/-! PROOFS. Lemmas for O34 and O43. -/

namespace Sys2Proof.Machine

/-! ### The debounce machine reads no entry id and no fast-flash request -/

/-- The table without the records' entry ids and the fast-flash requests. -/
def bare (f : Flt) : Flt := { f with records := recordContents f, fastLeft := false, fastRight := false }

def bareEffect : FltEffect → FltEffect
  | .removed r healed => .removed r.content healed
  | .activated r => .activated r.content

def bareStep (x : FltStep) : FltStep := (bare x.1, x.2.map bareEffect)

theorem bare_eq_iff {f g : Flt} :
    bare f = bare g ↔
      recordContents f = recordContents g ∧ f.activation = g.activation ∧ f.saturated = g.saturated := by
  simp [bare]

theorem findRecord_bare (f : Flt) (k : FaultKey) : findRecord (bare f) k = findRecord f k := by
  simp only [findRecord, bare, recordContents, List.findIdx?_map]
  refine congrArg (fun q => f.records.findIdx? q) (funext fun o => ?_)
  cases o <;> rfl

theorem recordAt_bare (f : Flt) (i : Nat) : recordAt (bare f) i = (recordAt f i).map FaultRecord.content := by
  simp only [recordAt, bare, recordContents, List.getD, List.getElem?_map]
  cases f.records[i]? <;> rfl

theorem recordOf_bare (f : Flt) (k : FaultKey) : recordOf (bare f) k = (recordOf f k).map FaultRecord.content := by
  simp only [recordOf, findRecord_bare]
  cases findRecord f k with
  | none => rfl
  | some i => exact recordAt_bare f i

theorem emptyPosition_bare (f : Flt) : emptyPosition (bare f) = emptyPosition f := by
  simp only [emptyPosition, bare, recordContents, List.findIdx?_map]
  refine congrArg (fun q => f.records.findIdx? q) (funext fun o => ?_)
  cases o <;> rfl

theorem putRecord_bare (i : Nat) (r : FaultRecord) (f : Flt) :
    putRecord i r.content (bare f) = bare (putRecord i r f) := by
  simp [putRecord, bare, recordContents, List.map_set]

theorem recordCount_contents (f : Flt) : recordCount (bare f) = recordCount f := by
  simp only [recordCount, bare, recordContents, List.filter_map, List.length_map]
  refine congrArg (fun q => (f.records.filter q).length) (funext fun o => ?_)
  cases o <;> rfl

theorem dropRecord_bare (i : Nat) (f : Flt) : dropRecord i (bare f) = bare (dropRecord i f) := by
  have hset : ({ bare f with records := (bare f).records.set i none } : Flt) =
      bare { f with records := f.records.set i none } := by
    simp [bare, recordContents, List.map_set]
  rw [dropRecord, hset]
  simp only [settleSaturated, recordCount_contents, dropRecord]
  rfl

theorem firstActive_bare (i : Nat) (r : FaultRecord) (f : Flt) :
    firstActive i r.content (bare f) = bareStep (firstActive i r f) := by
  refine Prod.ext ?_ rfl
  exact putRecord_bare i { r with state := .active, heal := 0, sequence := some (f.activation + 1), acked := false }
    { f with activation := f.activation + 1 }

/-- The record a significant outcome begins. -/
def begunRecord (v : Verdict) (k : Kind) : FaultRecord :=
  { key := v.key, identity := v.identity, kind := k, state := .suspect, suspect := 1, heal := 0, sequence := none
    acked := false, entryId := none, lastExpected := v.expected, lastDeficit := v.deficit }

theorem createSuspect_bare (p : Params) (v : Verdict) (k : Kind) (f : Flt) :
    createSuspect p v k (bare f) = bareStep (createSuspect p v k f) := by
  unfold createSuspect
  rw [emptyPosition_bare]
  cases emptyPosition f with
  | none => rfl
  | some i =>
    by_cases h : p.confirm ≤ 1
    · simp only [if_pos h]
      exact firstActive_bare i (begunRecord v k) f
    · simp only [if_neg h]
      exact Prod.ext (putRecord_bare i (begunRecord v k) f) rfl

theorem significant_bare (p : Params) (i : Nat) (r : FaultRecord) (k : Kind) (f : Flt) :
    significant p i r.content k (bare f) = bareStep (significant p i r k f) := by
  have hstate : r.content.state = r.state := rfl
  have hsuspect : r.content.suspect = r.suspect := rfl
  unfold significant
  simp only [hstate, hsuspect]
  cases r.state with
  | suspect =>
    by_cases h : p.confirm ≤ r.suspect + 1
    · simp only [if_pos h]
      exact firstActive_bare i { r with kind := k, suspect := r.suspect + 1 } f
    · simp only [if_neg h]
      exact Prod.ext (putRecord_bare i { r with kind := k, suspect := r.suspect + 1, state := .suspect } f) rfl
  | active =>
    exact Prod.ext (putRecord_bare i { r with kind := k, acked := r.acked && r.kind = k, state := .active } f) rfl
  | healing =>
    exact Prod.ext
      (putRecord_bare i { r with kind := k, acked := r.acked && r.kind = k, state := .active, heal := 0 } f) rfl

theorem healed_bare (p : Params) (i : Nat) (r : FaultRecord) (f : Flt) :
    healed p i r.content (bare f) = bareStep (healed p i r f) := by
  have hstate : r.content.state = r.state := rfl
  have hheal : r.content.heal = r.heal := rfl
  unfold healed
  simp only [hstate, hheal]
  cases r.state with
  | suspect => exact Prod.ext (dropRecord_bare i f) rfl
  | active =>
    by_cases h : p.heal ≤ 1
    · simp only [if_pos h]
      exact Prod.ext (dropRecord_bare i f) rfl
    · simp only [if_neg h]
      exact Prod.ext (putRecord_bare i { r with state := .healing, heal := 1 } f) rfl
  | healing =>
    by_cases h : p.heal ≤ r.heal + 1
    · simp only [if_pos h]
      exact Prod.ext (dropRecord_bare i f) rfl
    · simp only [if_neg h]
      exact Prod.ext (putRecord_bare i { r with heal := r.heal + 1, state := .healing } f) rfl

theorem applyVerdict_bare (p : Params) (v : Verdict) (f : Flt) :
    applyVerdict p v (bare f) = bareStep (applyVerdict p v f) := by
  unfold applyVerdict
  rw [findRecord_bare, recordOf_bare]
  cases findRecord f v.key with
  | none => cases v.kind with
    | none => rfl
    | some k => exact createSuspect_bare p v k f
  | some i => cases recordOf f v.key with
    | none => cases v.kind with
      | none => rfl
      | some k => exact createSuspect_bare p v k f
    | some r => cases v.kind with
      | none => exact healed_bare p i { r with lastExpected := v.expected, lastDeficit := v.deficit } f
      | some k => exact significant_bare p i { r with lastExpected := v.expected, lastDeficit := v.deficit } k f

theorem applyBatch_bare (p : Params) (vs : List Verdict) (f : Flt) :
    applyBatch p vs (bare f) = bareStep (applyBatch p vs f) := by
  induction vs generalizing f with
  | nil => rfl
  | cons v vs ih =>
    rw [applyBatch_first, applyBatch_first, applyVerdict_bare]
    simp only [bareStep, ih, List.map_append]

theorem faultReports_bare (es : List FltEffect) : faultReports (es.map bareEffect) = faultReports es := by
  simp only [faultReports, List.filterMap_map]
  refine List.filterMap_congr fun e _ => ?_
  cases e <;> rfl

/-- A batch makes of tables alike tables alike, with the same reports. -/
theorem applyBatch_alike {f g : Flt} (p : Params) (vs : List Verdict) (h : bare f = bare g) :
    bare (applyBatch p vs f).1 = bare (applyBatch p vs g).1 ∧
      faultReports (applyBatch p vs f).2 = faultReports (applyBatch p vs g).2 := by
  have hstep : bareStep (applyBatch p vs f) = bareStep (applyBatch p vs g) := by
    rw [← applyBatch_bare, ← applyBatch_bare, h]
  refine ⟨congrArg Prod.fst hstep, ?_⟩
  rw [← faultReports_bare, ← faultReports_bare (applyBatch p vs g).2]
  exact congrArg (fun x : FltStep => faultReports x.2) hstep

theorem applyBatch_joined (p : Params) (us vs : List Verdict) (f : Flt) :
    applyBatch p (us ++ vs) f =
      ((applyBatch p vs (applyBatch p us f).1).1,
        (applyBatch p us f).2 ++ (applyBatch p vs (applyBatch p us f).1).2) := by
  induction us generalizing f with
  | nil => simp
  | cons u us ih => rw [List.cons_append, applyBatch_first, ih, applyBatch_first, List.append_assoc]

theorem faultReports_append (es fs : List FltEffect) :
    faultReports (es ++ fs) = faultReports es ++ faultReports fs := List.filterMap_append

theorem bare_commitFaults (f : Flt) (s : State) : bare (commitFaults f s).flt = bare f := by
  rw [commitFaults_flt]
  rfl

theorem bare_handOverWith (owned : List DisplayEntry → List DisplayEntry) (es : List FltEffect) (s : State) :
    bare (handOverWith owned es s).flt = bare s.flt := by
  refine bare_eq_iff.2 ⟨handOverWith_contents owned es s, ?_, ?_⟩
  all_goals rw [handOverWith_flt]

theorem bare_onFaults (op : Flt → FltStep) (s : State) : bare (onFaults op s).flt = bare (op s.flt).1 :=
  (bare_handOverWith _ _ _).trans (bare_commitFaults _ _)

/-! ### Wake reports one behind the other (R192, R193) -/

theorem Reported.nothing (mask : WakeSet) {p q : Pwc} (hf : q.wakeFlags = p.wakeFlags) (hr : q.wakeRecord = p.wakeRecord) :
    Reported mask [] p q := by
  refine ⟨fun c => ?_, ?_⟩
  · rw [hf]
    simp
  · rw [hr]
    cases p.wakeRecord <;> rfl

theorem Reported.append {mask : WakeSet} {rs ts : List WakeRecord} {p q r : Pwc} (h : Reported mask rs p q)
    (k : Reported mask ts q r) : Reported mask (rs ++ ts) p r := by
  obtain ⟨hf, hr⟩ := h
  obtain ⟨kf, kr⟩ := k
  refine ⟨fun c => ?_, ?_⟩
  · rw [kf, hf, List.any_append, Bool.or_assoc]
  · rw [kr, hr, List.find?_append]
    cases p.wakeRecord <;> cases rs.find? (fun r => mask.has r.cause) <;> rfl

theorem reportActivations_reported {s : State} (h : s.pwc.power = .standby) (es : List FltEffect) :
    Reported s.params.wakeMask (faultReports es) s.pwc (reportActivations es s).pwc := by
  induction es generalizing s with
  | nil => exact .nothing _ rfl rfl
  | cons e es ih =>
    cases e with
    | removed r b => exact ih h
    | activated r =>
      obtain ⟨hfirst, -⟩ := reportWake_reported h (faultReport r)
      have hsame := reportWake_eq (faultReport r) s
      have hpower : (reportWake (faultReport r) s).pwc.power = .standby := by
        rw [reportWake, if_pos h]
        exact h
      have hrest := ih hpower
      rw [show (reportWake (faultReport r) s).params = s.params by rw [hsame]] at hrest
      exact hfirst.append hrest

end Sys2Proof.Machine

end


/-! ### A standby scan and the parked circuits -/

section

/-! PROOFS. O43. -/

namespace Sys2Proof.Machine

/-! ### An offer entered, without its hand-over -/

/-- The outcomes an offer gives: those of its judgement, none where it is held. -/
def offered (o : Offer) (s : State) : List Verdict := if heldOf o s = .none then (judgementOf o s).batch else []

section

variable (o : Offer) (s : State)

theorem judgeOffer_faults :
    bare (judgeOffer o s).1.flt = bare (applyBatch s.params (offered o s) s.flt).1 ∧
      (judgeOffer o s).2 = (applyBatch s.params (offered o s) s.flt).2 := by
  unfold offered
  by_cases h : heldOf o s = .none
  · rw [if_pos h, judgeOffer_made h]
    exact ⟨bare_commitFaults _ _, rfl⟩
  · rw [if_neg h, judgeOffer_held h]
    exact ⟨rfl, rfl⟩

theorem judgeOffer_leaves :
    (judgeOffer o s).1.jge = { s.jge with summaries := s.jge.summaries.set o.circuit (some (summaryLeft o s)) } ∧
      (judgeOffer o s).1.hlc.word = s.hlc.word ∧ OnlyChanges [.jge, .flt, .hlc] s (judgeOffer o s).1 := by
  have honly : OnlyChanges [.jge, .flt, .hlc] s (judgeOffer o s).1 := by
    rw [judgeOffer_eq]
    exact .of_fields
  by_cases h : heldOf o s = .none
  · refine ⟨?_, ?_, honly⟩
    · rw [judgeOffer_made h, commitFaults_jge]
      rfl
    · rw [judgeOffer_made h, commitFaults_hlc_word]
      rfl
  · refine ⟨?_, ?_, honly⟩
    all_goals
      rw [judgeOffer_held h]
      rfl

end

theorem setSenseSat_eq (c : Circuit) (b : Bool) (s : State) :
    setSenseSat c b s =
      { s with
        sfe := { s.sfe with circuits := s.sfe.circuits.set c { s.sfe.circuits.get c with senseSat := b } }
        hlc := { s.hlc with changes := (setSenseSat c b s).hlc.changes } } := by
  simp [setSenseSat, setCircuit, markIf_eq]

/-! ### The parked circuits one after the other (R15) -/

section

variable (codes : ScanCodes) (b : State)

/-- The offer of a circuit of a standby scan. -/
def scanOffer (c : Circuit) : Offer := parkedOffer c b.params codes b.now (b.sfe.circuits.get c)

/-- The outcomes of the parked circuits that are not held, in the order of the circuits. -/
def parkedBatch (ks : List Circuit) : List Verdict :=
  ((ks.filter fun c =>
    decide ((b.sfe.circuits.get c).phase = .parkedOn ∧ heldOf (scanOffer codes b c) b = .none)).map fun c =>
      (judgementOf (scanOffer codes b c) b).batch).flatten

/-- What the circuits taken so far leave. -/
structure ParkedTaken (ks : List Circuit) (acc : State × List FltEffect) : Prop where
  only : OnlyChanges [.sfe, .jge, .flt, .hlc] b acc.1
  word : acc.1.hlc.word = b.hlc.word
  sense : acc.1.sfe = { b.sfe with circuits := acc.1.sfe.circuits }
  judged : acc.1.jge = { b.jge with summaries := acc.1.jge.summaries }
  circuit : ∀ c, acc.1.sfe.circuits.get c =
    if c ∈ ks ∧ (b.sfe.circuits.get c).phase = .parkedOn then
      { b.sfe.circuits.get c with senseSat := (scanOffer codes b c).saturated }
    else b.sfe.circuits.get c
  summary : ∀ c, acc.1.jge.summaries.get c =
    if c ∈ ks ∧ (b.sfe.circuits.get c).phase = .parkedOn then some (summaryLeft (scanOffer codes b c) b)
    else b.jge.summaries.get c
  faults : bare acc.1.flt = bare (applyBatch b.params (parkedBatch codes b ks) b.flt).1
  reports : faultReports acc.2 = faultReports (applyBatch b.params (parkedBatch codes b ks) b.flt).2

variable {codes b}

theorem parkedBatch_snoc (ks : List Circuit) {c : Circuit} (h : (b.sfe.circuits.get c).phase = .parkedOn) :
    parkedBatch codes b (ks ++ [c]) = parkedBatch codes b ks ++ offered (scanOffer codes b c) b := by
  by_cases hh : heldOf (scanOffer codes b c) b = .none <;>
    simp [parkedBatch, List.filter_append, offered, h, hh]

theorem parkedBatch_snoc_unparked (ks : List Circuit) {c : Circuit} (h : (b.sfe.circuits.get c).phase ≠ .parkedOn) :
    parkedBatch codes b (ks ++ [c]) = parkedBatch codes b ks := by
  simp [parkedBatch, List.filter_append, h]

theorem ParkedTaken.unparked {ks : List Circuit} {c : Circuit} {acc : State × List FltEffect}
    (h : ParkedTaken codes b ks acc) (hp : (b.sfe.circuits.get c).phase ≠ .parkedOn) :
    ParkedTaken codes b (ks ++ [c]) acc := by
  have hmem : ∀ d, (d ∈ ks ++ [c] ∧ (b.sfe.circuits.get d).phase = .parkedOn) ↔
      (d ∈ ks ∧ (b.sfe.circuits.get d).phase = .parkedOn) := by
    intro d
    simp only [List.mem_append, List.mem_singleton, or_and_right, or_iff_left_iff_imp]
    rintro ⟨rfl, hd⟩
    exact absurd hd hp
  refine { h with circuit := fun d => ?_, summary := fun d => ?_, faults := ?_, reports := ?_ }
  · simp only [hmem d, h.circuit d]
  · simp only [hmem d, h.summary d]
  · rw [parkedBatch_snoc_unparked ks hp, h.faults]
  · rw [parkedBatch_snoc_unparked ks hp, h.reports]

theorem ParkedTaken.parked {ks : List Circuit} {c : Circuit} {acc : State × List FltEffect}
    (h : ParkedTaken codes b ks acc) (hc : c ∉ ks) (hp : (b.sfe.circuits.get c).phase = .parkedOn) :
    ParkedTaken codes b (ks ++ [c]) (parkedStep codes acc c) := by
  obtain ⟨o, ho⟩ : ∃ o, o = scanOffer codes b c := ⟨_, rfl⟩
  obtain ⟨t, ht⟩ : ∃ t, t = setSenseSat c o.saturated acc.1 := ⟨_, rfl⟩
  have hx : acc.1.sfe.circuits.get c = b.sfe.circuits.get c := by rw [h.circuit c, if_neg fun k => hc k.1]
  have hparams : acc.1.params = b.params := h.only .params (by decide)
  have hstep : parkedStep codes acc c = ((judgeOffer o t).1, acc.2 ++ (judgeOffer o t).2) := by
    have hnow : acc.1.now = b.now := h.only .now (by decide)
    simp only [parkedStep, hx, hp, if_true, hparams, hnow]
    rw [ht, ho]
    rfl
  have hts := setSenseSat_eq c o.saturated acc.1
  rw [← ht] at hts
  have htsfe : t.sfe = { acc.1.sfe with
      circuits := acc.1.sfe.circuits.set c { acc.1.sfe.circuits.get c with senseSat := o.saturated } } := by rw [hts]
  have htparams : t.params = b.params := by rw [hts, ← hparams]
  have htjge : t.jge = acc.1.jge := by rw [hts]
  have htflt : t.flt = acc.1.flt := by rw [hts]
  have htclc : t.clc = b.clc := by rw [hts]; exact h.only .clc (by decide)
  have htldt : t.ldt = b.ldt := by rw [hts]; exact h.only .ldt (by decide)
  have hword : t.hlc.word = b.hlc.word := by rw [hts]; exact h.word
  have hreads : SameReads (o := o) b t :=
    ⟨by rw [htjge, h.judged], hword, by rw [htclc], by rw [htclc], htparams, fun i => by rw [htparams, htldt]⟩
  obtain ⟨hjge, hjword, honly⟩ := judgeOffer_leaves o t
  obtain ⟨hfaults, heffects⟩ := judgeOffer_faults o t
  have hoffered : offered o t = offered o b := by rw [offered, offered, hreads.held, hreads.judgement]
  rw [hoffered, htparams, htflt] at hfaults heffects
  have hoc : o.circuit = c := congrArg Offer.circuit ho
  rw [hreads.summary, htjge, hoc] at hjge
  have hsfe : (judgeOffer o t).1.sfe = t.sfe := honly .sfe (by decide)
  have hnext := applyBatch_alike b.params (offered o b) h.faults
  rw [hstep]
  refine ⟨?_, hjword.trans hword, ?_, ?_, fun d => ?_, fun d => ?_, ?_, ?_⟩
  · have h1 : OnlyChanges [.sfe, .hlc] acc.1 t := by
      rw [hts]
      exact .of_fields
    exact (h.only.trans (h1.trans honly)).mono (by decide)
  · simp only [hsfe, htsfe]
    rw [h.sense]
  · simp only [hjge]
    rw [h.judged]
  · simp only [hsfe, htsfe]
    by_cases hd : d = c
    · subst hd
      rw [PerCircuit.get_set_same, hx, if_pos ⟨List.mem_append_right _ (List.mem_singleton.2 rfl), hp⟩, ho]
    · rw [PerCircuit.get_set_other _ _ _ _ hd, h.circuit d]
      simp [hd]
  · simp only [hjge]
    by_cases hd : d = c
    · subst hd
      rw [PerCircuit.get_set_same, if_pos ⟨List.mem_append_right _ (List.mem_singleton.2 rfl), hp⟩, ho]
    · rw [PerCircuit.get_set_other _ _ _ _ hd, h.summary d]
      simp [hd]
  · rw [parkedBatch_snoc ks hp, applyBatch_joined, ← ho]
    exact hfaults.trans hnext.1
  · rw [parkedBatch_snoc ks hp, applyBatch_joined, ← ho]
    simp only [faultReports_append]
    rw [h.reports, heffects, hnext.2]

theorem foldl_parkedStep (ks : List Circuit) (hn : ks.Nodup) :
    ParkedTaken codes b ks (ks.foldl (parkedStep codes) (b, [])) := by
  induction ks using List.reverseRecOn with
  | nil => exact ⟨(OnlyChanges.refl b).mono (by simp), rfl, rfl, rfl, by simp, by simp, rfl, rfl⟩
  | append_singleton ks c ih =>
    obtain ⟨hks, -, hc⟩ := List.nodup_append.1 hn
    have hnot : c ∉ ks := fun h => hc c h c (List.mem_singleton.2 rfl) rfl
    have hprev := ih hks
    rw [List.foldl_append]
    by_cases hp : (b.sfe.circuits.get c).phase = .parkedOn
    · exact hprev.parked hnot hp
    · have hx : ((ks.foldl (parkedStep codes) (b, [])).1.sfe.circuits.get c).phase ≠ .parkedOn := by
        rw [hprev.circuit c, if_neg fun k => hnot k.1]
        exact hp
      have hsame : parkedStep codes (ks.foldl (parkedStep codes) (b, [])) c = ks.foldl (parkedStep codes) (b, []) :=
        if_neg hx
      rw [List.foldl_cons, List.foldl_nil, hsame]
      exact hprev.unparked hp

end

/-! ### The low count (R192) -/

/-- The reports of the low count: one at the fifth low sample. -/
def lowReports (v low : Nat) : List WakeRecord :=
  if v < 16000 ∧ 4 ≤ low then [{ cause := .supply, circuit := none, slot := none, identity := none }] else []

theorem countLowSupply_reported {s : State} (h : s.pwc.power = .standby) :
    Reported s.params.wakeMask (lowReports s.sfe.supplyReading s.pwc.lowScans) s.pwc (countLowSupply s).pwc ∧
      (countLowSupply s).pwc.lowScans = (if s.sfe.supplyReading < 16000 then min (s.pwc.lowScans + 1) 5 else 0) ∧
      (countLowSupply s).pwc.power = .standby ∧ OnlyChanges [.pwc] s (countLowSupply s) := by
  by_cases hv : s.sfe.supplyReading < 16000
  · obtain ⟨t, ht⟩ : ∃ t, t = { s with pwc := { s.pwc with lowScans := min (s.pwc.lowScans + 1) 5 } } := ⟨_, rfl⟩
    have htp : t.pwc.power = .standby := by rw [ht]; exact h
    by_cases h5 : 4 ≤ s.pwc.lowScans
    · have heq : countLowSupply s = reportWake { cause := .supply, circuit := none, slot := none, identity := none } t := by
        rw [countLowSupply, if_pos (show s.sfe.supplyReading < voltageLow from hv), ht]
        exact if_pos (by omega)
      obtain ⟨hrep, -⟩ := reportWake_reported htp { cause := .supply, circuit := none, slot := none, identity := none }
      rw [heq, lowReports, if_pos ⟨hv, h5⟩, if_pos hv]
      refine ⟨?_, ?_, ?_, ?_⟩
      · rw [ht] at hrep ⊢
        exact hrep
      · rw [reportWake, if_pos htp, ht]
      · rw [reportWake, if_pos htp]
        exact htp
      · have h1 : OnlyChanges [.pwc] s t := ht ▸ .of_fields
        exact (h1.trans (reportWake_only _ t)).mono (by decide)
    · have heq : countLowSupply s = t := by
        rw [countLowSupply, if_pos (show s.sfe.supplyReading < voltageLow from hv), ht]
        exact if_neg (by omega)
      rw [heq, lowReports, if_neg fun k => h5 k.2, if_pos hv, ht]
      exact ⟨.nothing _ rfl rfl, rfl, h, .of_fields⟩
  · have heq : countLowSupply s = { s with pwc := { s.pwc with lowScans := 0 } } :=
      if_neg (show ¬ s.sfe.supplyReading < voltageLow from hv)
    rw [heq, lowReports, if_neg fun k => hv k.1, if_neg hv]
    exact ⟨.nothing _ rfl rfl, rfl, h, .of_fields⟩

end Sys2Proof.Machine

end


/-! ### A standby scan -/

section

/-! PROOFS. O43. -/

namespace Sys2Proof.Machine

/-- The state the parked circuits are taken in: the supply sample read and the low count stepped (R15, R192). -/
def supplyTaken (codes : ScanCodes) (s : State) : State :=
  countLowSupply (setVoltage (outOfWindow (sampleSupply codes.supply))
    { reach s.sfe.standbyScan s with
      sfe := { s.sfe with
        standbyScan := max s.now s.sfe.standbyScan + standbyScanPeriod, supplyReading := sampleSupply codes.supply } })

theorem supplyTaken_leaves (codes : ScanCodes) {s : State} (h : s.pwc.power = .standby) :
    (supplyTaken codes s).now = max s.now s.sfe.standbyScan ∧
      (supplyTaken codes s).sfe = { s.sfe with
        standbyScan := max s.now s.sfe.standbyScan + standbyScanPeriod, supplyReading := sampleSupply codes.supply
        voltage := outOfWindow (sampleSupply codes.supply) } ∧
      (supplyTaken codes s).hlc.word = s.hlc.word ∧
      Reported s.params.wakeMask (lowReports (sampleSupply codes.supply) s.pwc.lowScans) s.pwc
        (supplyTaken codes s).pwc ∧
      (supplyTaken codes s).pwc.lowScans =
        (if sampleSupply codes.supply < 16000 then min (s.pwc.lowScans + 1) 5 else 0) ∧
      (supplyTaken codes s).pwc.power = .standby ∧
      OnlyChanges [.now, .sfe, .hlc, .pwc] s (supplyTaken codes s) := by
  obtain ⟨t, ht⟩ : ∃ t, t = setVoltage (outOfWindow (sampleSupply codes.supply))
    { reach s.sfe.standbyScan s with
      sfe := { s.sfe with
        standbyScan := max s.now s.sfe.standbyScan + standbyScanPeriod
        supplyReading := sampleSupply codes.supply } } := ⟨_, rfl⟩
  have hb : supplyTaken codes s = countLowSupply t := by rw [ht]; rfl
  rw [setVoltage, markIf_eq] at ht
  have hsfe : t.sfe = { s.sfe with
      standbyScan := max s.now s.sfe.standbyScan + standbyScanPeriod, supplyReading := sampleSupply codes.supply
      voltage := outOfWindow (sampleSupply codes.supply) } := by rw [ht]
  have hnow : t.now = max s.now s.sfe.standbyScan := by rw [ht]; rfl
  have hword : t.hlc.word = s.hlc.word := by rw [ht]; rfl
  have hpwc : t.pwc = s.pwc := by rw [ht]; rfl
  have hparams : t.params = s.params := by rw [ht]; rfl
  have honly : OnlyChanges [.now, .sfe, .hlc] s t := by
    rw [ht]
    exact .of_fields
  obtain ⟨hrep, hlow, hpower, hcount⟩ := countLowSupply_reported (s := t) (by rw [hpwc]; exact h)
  rw [hpwc, hparams, hsfe] at hrep
  rw [hpwc, hsfe] at hlow
  rw [hb]
  refine ⟨Eq.trans (hcount .now (by decide)) hnow, Eq.trans (hcount .sfe (by decide)) hsfe, ?_, hrep, hlow, hpower,
    (honly.trans hcount).mono (by decide)⟩
  rw [show (countLowSupply t).hlc = t.hlc from hcount .hlc (by decide), hword]

theorem faultReports_cause {es : List FltEffect} {r : WakeRecord} (h : r ∈ faultReports es) : r.cause = .fault := by
  obtain ⟨e, -, he⟩ := List.mem_filterMap.1 h
  cases e with
  | removed x b => exact absurd he nofun
  | activated x => exact Option.some.inj he ▸ rfl

theorem lowReports_any (v low : Nat) (c : WakeCause) :
    ((lowReports v low).any fun r => r.cause = c) = decide (c = .supply ∧ v < 16000 ∧ 4 ≤ low) := by
  unfold lowReports
  cases c <;> split <;> simp_all

/-- Settles O43: the supply sample, then the parked circuits in their order, then one hand-over. -/
theorem aStandbyScanJudgesTheParkedCircuits : Obligations.AStandbyScanJudgesTheParkedCircuits := by
  intro codes s hh hp
  obtain ⟨v, hv⟩ : ∃ v, v = sampleSupply codes.supply := ⟨_, rfl⟩
  obtain ⟨b, hb⟩ : ∃ b, b = supplyTaken codes s := ⟨_, rfl⟩
  obtain ⟨acc, hacc⟩ : ∃ acc, acc = allCircuits.foldl (parkedStep codes) (b, []) := ⟨_, rfl⟩
  obtain ⟨u, hu⟩ : ∃ u, u = handOver acc.2 acc.1 := ⟨_, rfl⟩
  have hwork : exec (.standbyScan codes) s = .next (finish u) := by
    refine congrArg Host.Outcome.next ((event_released _ s hh).trans (congrArg finish ((if_pos hp).trans ?_)))
    rw [hu, hacc, hb]
    rfl
  obtain ⟨hnow, hsfe, hword, hlowrep, hlow, hpower, honly⟩ := supplyTaken_leaves codes hp
  rw [← hb] at hnow hsfe hword hlowrep hlow hpower honly
  rw [← hv] at hsfe hlowrep hlow
  have htaken : ParkedTaken codes b allCircuits acc := hacc ▸ foldl_parkedStep allCircuits (by decide)
  have hall : ∀ c : Circuit, c ∈ allCircuits := mem_allCircuits
  have hcircuits : b.sfe.circuits = s.sfe.circuits := by rw [hsfe]
  have hjge : b.jge = s.jge := honly .jge (by decide)
  have hflt : b.flt = s.flt := honly .flt (by decide)
  have hparams : b.params = s.params := honly .params (by decide)
  have hclc : b.clc = s.clc := honly .clc (by decide)
  have hldt : b.ldt = s.ldt := honly .ldt (by decide)
  have hreads : ∀ o, SameReads (o := o) s b := fun o =>
    ⟨by rw [hjge], hword, by rw [hclc], by rw [hclc], hparams, fun i => by rw [hparams, hldt]⟩
  have hu' : u = { acc.1 with flt := u.flt, dsr := u.dsr, hlc := u.hlc, pwc := u.pwc } := by
    rw [hu]
    exact handOverWith_eq id acc.2 acc.1
  have huonly : OnlyChanges [.flt, .dsr, .hlc, .pwc] acc.1 u := by
    rw [hu']
    exact .of_fields
  have husfe : u.sfe = acc.1.sfe := huonly .sfe (by decide)
  have hujge : u.jge = acc.1.jge := huonly .jge (by decide)
  have hunow : u.now = b.now := Eq.trans (huonly .now (by decide)) (htaken.only .now (by decide))
  have hfaults : bare u.flt = bare (applyBatch s.params (parkedBatch codes b allCircuits) s.flt).1 := by
    rw [hu, ← hparams, ← hflt]
    exact (bare_handOverWith _ _ _).trans htaken.faults
  obtain ⟨hcontents, hactivation, hsaturated⟩ := bare_eq_iff.1 hfaults
  have haccpwc : acc.1.pwc = b.pwc := htaken.only .pwc (by decide)
  have hupwc : u.pwc = (reportActivations acc.2 acc.1).pwc := hu ▸ handOverWith_pwc _ _ _
  have hreported : Reported s.params.wakeMask (lowReports v s.pwc.lowScans ++
      faultReports (applyBatch s.params (parkedBatch codes b allCircuits) s.flt).2) s.pwc u.pwc := by
    have h := reportActivations_reported (s := acc.1) (haccpwc ▸ hpower) acc.2
    rw [← hupwc, htaken.reports, haccpwc, show acc.1.params = s.params from
      Eq.trans (htaken.only .params (by decide)) hparams, hparams, hflt] at h
    exact hlowrep.append h
  have hflag : ∀ c, c ≠ .fault → u.pwc.wakeFlags.has c =
      (s.pwc.wakeFlags.has c || (lowReports v s.pwc.lowScans).any fun r => r.cause = c) := by
    intro c hc
    rw [hreported.1, List.any_append]
    have hnone : ((faultReports (applyBatch s.params (parkedBatch codes b allCircuits) s.flt).2).any
        fun r => r.cause = c) = false := by
      rw [List.any_eq_false]
      exact fun r hr => by rw [faultReports_cause hr]; simpa using hc.symm
    rw [hnone, Bool.or_false]
  have hheld : ∀ c, heldOf (scanOffer codes b c) s =
      if s.clc.census.isSome then HeldCause.census
      else if v < 16000 ∨ 32000 < v then .voltage
      else if (chooseAction s.jge.rules s.hlc.word c).1 = .hold then .rule else .none := by
    intro c
    rw [heldOf, heldCause_eq, hv]
    rfl
  have hout : v < 16000 ∨ 32000 < v → ∀ c, heldOf (scanOffer codes b c) s ≠ .none := by
    intro h c
    rw [hheld, if_pos h]
    split <;> exact nofun
  have hbatch : parkedBatch codes b allCircuits = ((allCircuits.filter fun c =>
      decide ((s.sfe.circuits.get c).phase = .parkedOn ∧ heldOf (scanOffer codes b c) s = .none)).map fun c =>
        (judgementOf (scanOffer codes b c) s).batch).flatten := by
    simp only [parkedBatch, hcircuits, (hreads _).held, (hreads _).judgement]
  refine ⟨u, v, hwork, hv, hunow.trans hnow, ?_, ?_, ?_, ?_, ?_, ?_, fun c hc => ⟨?_, ?_⟩,
    ⟨scanOffer codes b, fun c => chooseAction s.jge.rules s.hlc.word c, fun c => heldOf (scanOffer codes b c) s,
      fun c => judgementOf (scanOffer codes b c) s, parkedBatch codes b allCircuits, fun c => ?_, fun c => rfl, hheld,
      fun c => rfl, fun c hc => ⟨?_, _, ?_, rfl, fun h => ⟨hout h c, if_neg (hout h c)⟩⟩, hbatch, hcontents,
      hactivation, hsaturated, hreported⟩, fun h => ?_, ?_, ?_, ?_⟩
  · rw [husfe, htaken.sense, hsfe, hunow, hnow]
  · rw [husfe, htaken.sense, hsfe]
  · rw [husfe, htaken.sense, hsfe]
    rfl
  · rw [hupwc, reportActivations_pwc, haccpwc, ← hlow]
  · have h := hflag .supply (by decide)
    rw [lowReports_any] at h
    exact h.trans (by simp; rfl)
  · have h := hflag .composition (by decide)
    rw [lowReports_any] at h
    exact h.trans (by simp; rfl)
  · rw [husfe, htaken.circuit c, hcircuits, if_neg fun h => hc h.2]
  · rw [hujge, htaken.summary c, hcircuits, hjge, if_neg fun h => hc h.2]
  · rw [hunow, scanOffer, parkedOffer, hparams, hcircuits, sampleCurrent_eq, hv]
    rfl
  · rw [husfe, htaken.circuit c, hcircuits, if_pos ⟨hall c, hc⟩]
    rfl
  · rw [hujge, htaken.summary c, hcircuits, if_pos ⟨hall c, hc⟩, (hreads _).summary, summaryLeft, hunow, hv]
    simp only [scanOffer, parkedOffer, hcircuits]
  · rw [hcontents, hbatch]
    have hempty : (allCircuits.filter fun c =>
        decide ((s.sfe.circuits.get c).phase = .parkedOn ∧ heldOf (scanOffer codes b c) s = .none)) = [] := by
      rw [List.filter_eq_nil_iff]
      intro c _
      simp [hout h c]
    rw [hempty]
    rfl
  · rw [hujge, htaken.judged, hjge]
  · rw [hujge, htaken.judged, hjge]
  · exact (honly.trans (htaken.only.trans huonly)).mono (by decide)

end Sys2Proof.Machine

end


/-! ### A CLUSTER-REPORT -/

section

/-! PROOFS. O35. -/

namespace Sys2Proof.Machine

/-! ### An acknowledgement (R143, R144) -/

theorem acknowledge_unacked {r : Triple} (h : r.acked = false) (s : State) : acknowledge r s = s :=
  if_neg (by simp [h])

theorem foldl_acknowledge_unacked {rs : List Triple} (h : ∀ r ∈ rs, r.acked = false) (s : State) :
    rs.foldl (fun acc r => acknowledge r acc) s = s := by
  induction rs generalizing s with
  | nil => rfl
  | cons r rs ih =>
    rw [List.foldl_cons, acknowledge_unacked (h r List.mem_cons_self)]
    exact ih (fun x hx => h x (List.mem_cons_of_mem r hx)) s

theorem acknowledge_current {r : Triple} {s : State} {e : DisplayEntry} (ha : r.acked = true)
    (he : (s.dsr.list.find? fun e => e.id = r.id) = some e) (hv : e.version = r.version) :
    acknowledge r s =
      match e.state with
      | .new =>
        { s with
          flt := ackRecord r.id s.flt
          dsr := { s.dsr with list := s.dsr.list.map fun x =>
            if x.id = r.id then { x with state := .acked, version := (x.version + 1) % 16 } else x } }
      | .resolved => { s with dsr := { s.dsr with list := s.dsr.list.filter fun x => x.id != r.id } }
      | .acked => s := by
  unfold acknowledge
  simp only [if_pos ha, he, if_pos hv]
  cases e.state <;> rfl

theorem acknowledge_stale {r : Triple} {s : State} (ha : r.acked = true)
    (h : ∀ e, (s.dsr.list.find? fun e => e.id = r.id) = some e → e.version ≠ r.version) :
    acknowledge r s = { s with dsr := { s.dsr with staleAcks := min (s.dsr.staleAcks + 1) 255 } } := by
  unfold acknowledge
  rw [if_pos ha]
  cases he : s.dsr.list.find? fun e => e.id = r.id with
  | none => rfl
  | some e => exact if_neg (h e he)

theorem acknowledge_leaves (r : Triple) (s : State) :
    (acknowledge r s).hlc = s.hlc ∧ OnlyChanges [.flt, .dsr] s (acknowledge r s) := by
  cases ha : r.acked with
  | false =>
    rw [acknowledge_unacked ha]
    exact ⟨rfl, (OnlyChanges.refl s).mono (by simp)⟩
  | true =>
    by_cases h : ∃ e, (s.dsr.list.find? fun e => e.id = r.id) = some e ∧ e.version = r.version
    · obtain ⟨e, he, hv⟩ := h
      rw [acknowledge_current ha he hv]
      cases e.state with
      | new => exact ⟨rfl, .of_fields⟩
      | resolved => exact ⟨rfl, .of_fields⟩
      | acked => exact ⟨rfl, (OnlyChanges.refl s).mono (by simp)⟩
    · rw [acknowledge_stale ha fun e he hv => h ⟨e, he, hv⟩]
      exact ⟨rfl, .of_fields⟩

theorem foldl_acknowledge_leaves (rs : List Triple) (s : State) :
    (rs.foldl (fun acc r => acknowledge r acc) s).hlc = s.hlc ∧
      OnlyChanges [.flt, .dsr] s (rs.foldl (fun acc r => acknowledge r acc) s) := by
  induction rs generalizing s with
  | nil => exact ⟨rfl, (OnlyChanges.refl s).mono (by simp)⟩
  | cons r rs ih =>
    obtain ⟨h, honly⟩ := acknowledge_leaves r s
    obtain ⟨k, konly⟩ := ih (acknowledge r s)
    exact ⟨k.trans h, (honly.trans konly).mono (by simp)⟩

/-! ### The match decided (R141) -/

section

variable {s : State}

theorem setMirror_changes (m : MirrorState) (s : State) :
    setMirror m s =
      { s with
        dsr := { s.dsr with mirror := m }
        hlc := { s.hlc with
          changes := if s.dsr.mirror = m then s.hlc.changes else addMatter .mirror s.hlc.changes } } := by
  by_cases h : s.dsr.mirror = m <;> simp [setMirror, markIf_eq, h]

theorem settleMirror_matched (h : s.hlc.changes = []) :
    settleMirror true s =
      { s with
        dsr := { s.dsr with reconcile := none, mirror := .inStep }
        hlc := { s.hlc with changes := if s.dsr.mirror = .inStep then [] else [.mirror] } } := by
  have heq : settleMirror true s = setMirror .inStep { s with dsr := { s.dsr with reconcile := none } } := rfl
  rw [heq, setMirror_changes, h]
  rfl

theorem settleMirror_unmatched (h : s.dsr.mirror ≠ .inStep) : settleMirror false s = s := if_neg h

theorem settleMirror_again (h : s.dsr.mirror = .inStep) : settleMirror false s = sendSnapshot s := if_pos h

theorem sendSnapshot_inStep (hm : s.dsr.mirror = .inStep) (hc : s.hlc.changes = []) :
    sendSnapshot s =
      { s with
        dsr := { s.dsr with mirror := .pending, reconcile := some (s.now + ms s.params.reconcile) }
        hlc := { s.hlc with
          sending := (sendSnapshot s).hlc.sending, queue := (sendSnapshot s).hlc.queue, changes := [.mirror] } } := by
  have hchanges : (sendSnapshot s).hlc.changes = [.mirror] := by
    simp [sendSnapshot, setMirror_changes, hm, hc, addMatter]
  have hhlc := (sendSnapshot_says s).only
  rw [hchanges] at hhlc
  exact (sendSnapshot_eq s).trans (congrArg (fun k : Hlc => ({ s with
    hlc := k, dsr := { s.dsr with reconcile := some (s.now + ms s.params.reconcile), mirror := .pending } } : State))
    hhlc)

theorem settleMirror_says (good : Bool) (s : State) : Says [] s.hlc (settleMirror good s).hlc := by
  unfold settleMirror
  split
  · exact setMirror_says _ rfl
  · split
    · exact sendSnapshot_says _
    · exact .refl _

theorem settleMirror_only (good : Bool) (s : State) : OnlyChanges [.dsr, .hlc] s (settleMirror good s) := by
  unfold settleMirror
  split
  · have h : ∀ t : State, OnlyChanges [.dsr, .hlc] t (setMirror .inStep t) := fun t => by
      rw [setMirror_changes]
      exact .of_fields
    exact ((OnlyChanges.of_fields (bs := [.dsr])).trans (h _)).mono (by simp)
  · split
    · exact sendSnapshot_only s
    · exact (OnlyChanges.refl s).mono (by simp)

end

/-! ### An accepted report (R140, R141) -/

/-- A report matched against the list as it stood, before its acknowledgements. -/
def reportSettled (r : MirrorContent) (s : State) : State :=
  settleMirror (reportMatches r s.dsr) { answered [] s with dsr := { s.dsr with content := r } }

theorem answered_only (rs : List TxRecord) (s : State) : OnlyChanges [.hlc] s (answered rs s) := by
  unfold answered
  exact .of_fields

section

variable {body : List Byte} {r : MirrorContent} {s u : State}

theorem takeReport_answers (h : Listening s) (hl : lengthGood { kind := 0x21, body := body } = true)
    (hr : r = reportContent body) (hu : u = reportSettled r s) {w : State}
    (hw : w = reevaluate (listView u.dsr) (r.triples.foldl (fun acc t => acknowledge t acc) u)) :
    exec (.clusterReport body) s = .next (finish w) ∧ replies (finish w).hlc = replies s.hlc ∧ Spoke s (finish w) := by
  obtain ⟨hacks, hackonly⟩ := foldl_acknowledge_leaves r.triples u
  have huonly : OnlyChanges [.dsr, .hlc] s u := by
    rw [hu]
    have h1 : OnlyChanges [.dsr] (answered [] s) { answered [] s with dsr := { s.dsr with content := r } } := .of_fields
    exact (((answered_only [] s).trans h1).trans (settleMirror_only _ _)).mono (by simp)
  have hwonly : OnlyChanges [.flt, .dsr, .hlc] s w := by
    rw [hw]
    exact ((huonly.trans hackonly).trans (reevaluate_only _ _)).mono (by simp)
  have hsays : Says [] (restartSilence s).hlc w.hlc := by
    have h1 : Says [] (restartSilence s).hlc u.hlc := by
      rw [hu]
      exact settleMirror_says _ { answered [] s with dsr := { s.dsr with content := r } }
    have h2 := reevaluate_says (listView u.dsr) (r.triples.foldl (fun acc t => acknowledge t acc) u)
    rw [hacks, ← hw] at h2
    exact h1.trans h2
  have hactive : w.pwc.power = .active := by
    obtain ⟨-, -, -, hp, -⟩ := h
    rw [show w.pwc = s.pwc from hwonly .pwc (by simp)]
    exact hp
  have hwork : takeReport (reportContent body) (restartSilence s) = w := by
    rw [hw, hu, hr]
    rfl
  obtain ⟨hexec, hreplies, hspoke⟩ := h.speaks (f := { kind := 0x21, body := body })
    (owner := takeReport (reportContent body)) rfl hl rfl hwork hsays hactive
  exact ⟨congrArg Host.Outcome.next hexec, by rw [hreplies, List.append_nil], hspoke⟩

theorem reportSettled_matched (h : Listening s) (hm : reportMatches r s.dsr = true) :
    reportSettled r s =
      { answered [] s with
        dsr := { s.dsr with content := r, reconcile := none, mirror := .inStep }
        hlc := { (answered [] s).hlc with changes := if s.dsr.mirror = .inStep then [] else [.mirror] } } := by
  obtain ⟨-, -, -, -, -, -, hc, -⟩ := h
  rw [reportSettled, hm, settleMirror_matched (by exact hc)]

theorem reportSettled_unmatched (hm : reportMatches r s.dsr = false) (hi : s.dsr.mirror ≠ .inStep) :
    reportSettled r s = { answered [] s with dsr := { s.dsr with content := r } } := by
  rw [reportSettled, hm, settleMirror_unmatched (by exact hi)]

theorem reportSettled_again (h : Listening s) (hm : reportMatches r s.dsr = false) (hi : s.dsr.mirror = .inStep)
    (hu : u = reportSettled r s) :
    u = { answered [] s with
        dsr := { s.dsr with
          content := r, mirror := .pending, reconcile := some (s.now + ms s.params.reconcile) }
        hlc := { (answered [] s).hlc with sending := u.hlc.sending, queue := u.hlc.queue, changes := [.mirror] } } ∧
      (∃ pre, outgoing u.hlc = pre ++ [.snapshot s.dsr.list s.dsr.overflow (telltales s.dsr.list)]) ∧
      replies u.hlc = replies s.hlc := by
  obtain ⟨-, -, -, -, -, -, hc, -⟩ := h
  rw [reportSettled, hm, settleMirror_again (by exact hi)] at hu
  obtain ⟨x, hx⟩ : ∃ x : State, x = { answered [] s with dsr := { s.dsr with content := r } } := ⟨_, rfl⟩
  rw [← hx] at hu
  have heq := sendSnapshot_inStep (s := x) (by rw [hx]; exact hi) (by rw [hx]; exact hc)
  have hout := sendSnapshot_outgoing x
  have hrep := (sendSnapshot_says x).replies
  rw [← hu, hx] at heq hout hrep
  exact ⟨heq, ⟨_, hout⟩, hrep.trans (List.append_nil _)⟩

/-- Where a re-evaluation finds the list as it is, a settled report leaves nothing to send. -/
theorem reevaluate_settled (h : rebuildList s.params s.flt s.dsr = (s.flt, s.dsr)) (hp : u.params = s.params)
    (hf : u.flt = s.flt)
    (hd : u.dsr = { s.dsr with content := u.dsr.content, mirror := u.dsr.mirror, reconcile := u.dsr.reconcile }) :
    reevaluate (listView u.dsr) u = u := by
  have hrebuilt : rebuildList u.params u.flt u.dsr = (u.flt, u.dsr) := by
    have h1 : rebuildList s.params s.flt
        { s.dsr with content := u.dsr.content, mirror := u.dsr.mirror, reconcile := u.dsr.reconcile } =
        ((rebuildList s.params s.flt s.dsr).1, { (rebuildList s.params s.flt s.dsr).2 with
          content := u.dsr.content, mirror := u.dsr.mirror, reconcile := u.dsr.reconcile }) := rfl
    rw [h, ← hd] at h1
    rw [hp, hf]
    exact h1
  have hsame : u = { u with flt := (rebuildList u.params u.flt u.dsr).1, dsr := (rebuildList u.params u.flt u.dsr).2 } := by
    rw [hrebuilt]
  exact (reevaluate_sends hsame).2 (.inr rfl)

end

/-- Settles O35: the match and its snapshot, then the acknowledgements and the re-evaluation behind them. -/
theorem aClusterReportIsMatched : Obligations.AClusterReportIsMatched := by
  intro body s h hl
  obtain ⟨r, hr⟩ : ∃ r, r = reportContent body := ⟨_, rfl⟩
  obtain ⟨u, hu⟩ : ∃ u, u = reportSettled r s := ⟨_, rfl⟩
  obtain ⟨hexec, hreplies, hspoke⟩ := takeReport_answers h hl hr hu rfl
  rw [← hr]
  refine ⟨⟨u, hexec, fun hm => hu.trans (reportSettled_matched h hm),
    fun hm hi => hu.trans (reportSettled_unmatched hm hi), fun hm hi => ?_⟩, fun hkeep hacks => ?_, fun t => ?_⟩
  · obtain ⟨heq, ⟨pre, hout⟩, hrep⟩ := reportSettled_again h hm hi hu
    exact ⟨pre, heq, hout, hrep⟩
  · rw [foldl_acknowledge_unacked hacks] at hexec hreplies hspoke
    have settled : u.params = s.params → u.flt = s.flt →
        u.dsr = { s.dsr with content := u.dsr.content, mirror := u.dsr.mirror, reconcile := u.dsr.reconcile } →
        exec (.clusterReport body) s = .next (finish u) ∧ replies (finish u).hlc = replies s.hlc ∧
          Spoke s (finish u) := by
      intro hp hf hd
      rw [reevaluate_settled hkeep hp hf hd] at hexec hreplies hspoke
      exact ⟨hexec, hreplies, hspoke⟩
    refine ⟨fun hm => ?_, fun hm hi => ?_, fun hm hi => ?_⟩
    · have hu' := hu.trans (reportSettled_matched h hm)
      obtain ⟨hexec, -⟩ := settled (by rw [hu']; rfl) (by rw [hu']; rfl) (by rw [hu'])
      rw [hexec, hu']
    · have hu' := hu.trans (reportSettled_unmatched hm hi)
      obtain ⟨hexec, -⟩ := settled (by rw [hu']; rfl) (by rw [hu']; rfl) (by rw [hu'])
      obtain ⟨-, -, -, -, -, -, hc, hlines⟩ := h
      rw [hexec, hu']
      exact congrArg Host.Outcome.next (finish_still _ hc hlines)
    · obtain ⟨hu', ⟨pre, hout⟩, -⟩ := reportSettled_again h hm hi hu
      obtain ⟨hexec, hreplies, hspoke⟩ := settled (by rw [hu']; rfl) (by rw [hu']; rfl) (by rw [hu'])
      have huonly : OnlyChanges [.dsr, .hlc] s u := by
        rw [hu']
        unfold answered
        exact .of_fields
      have hpwc : u.pwc = s.pwc := huonly .pwc (by simp)
      have hwake : s.pwc.wake = false := h.wake
      obtain ⟨-, -, -, hactive, -⟩ := h
      refine ⟨finish u, pre.filter fun r => !r.isStatusChange, hexec, ?_, ?_, hreplies, hspoke,
        (huonly.trans (finish_only_active (hpwc ▸ hactive) (hpwc ▸ hwake))).mono (by simp)⟩
      · rw [ttfbDue_finish, finish_dsr, hu']
      · rw [finish_notices, hout, List.filter_append]
        rfl
  · refine ⟨fun ha => acknowledge_unacked ha s, fun ha => ⟨fun e he hv => ⟨fun hs => ?_, fun hs => ?_, fun hs => ?_⟩,
      acknowledge_stale ha⟩⟩
    all_goals
      rw [acknowledge_current ha he hv, hs]
    rfl

end Sys2Proof.Machine

end


/-! ### The completions that come before the edges of a tell -/

section

/-! PROOFS. Lemmas for O34. -/

namespace Sys2Proof.Machine

/-! ### The learning of one circuit and the hand-overs of another (R53, R54) -/

/-- What the judgements of a circuit are handed of the Load Table is the same. -/
structure SameHandOver (c : Circuit) (t u : Ldt) : Prop where
  serving : ∀ i, servingIndex u i = servingIndex t i
  tracked : ∀ p i, trackedAt p u c i = trackedAt p t c i

section

variable {c d : Circuit} {t u v : Ldt}

theorem SameHandOver.refl (c : Circuit) (t : Ldt) : SameHandOver c t t := ⟨fun _ => rfl, fun _ _ => rfl⟩

theorem SameHandOver.trans (h : SameHandOver c t u) (k : SameHandOver c u v) : SameHandOver c t v :=
  ⟨fun i => (k.serving i).trans (h.serving i), fun p i => (k.tracked p i).trans (h.tracked p i)⟩

theorem learnEntry_other (h : d ≠ c) (tAbs l value volts : Nat) (cls : LampClass) (e : Entry) :
    (learnEntry c tAbs l value volts cls e).key = e.key ∧ (learnEntry c tAbs l value volts cls e).lock = e.lock ∧
      (learnEntry c tAbs l value volts cls e).cells.get d = e.cells.get d := by
  unfold learnEntry
  simp only
  split
  · exact ⟨rfl, rfl, PerCircuit.get_set_other _ _ _ _ h⟩
  · exact ⟨rfl, rfl, rfl⟩

theorem learnAt_handOver (h : d ≠ c) (i : Nat) (p : Params) (value volts : Nat) (cls : LampClass) (t : Ldt) :
    SameHandOver d t (learnAt i c p value volts cls t) := by
  refine ⟨fun _ => rfl, fun q o => ?_⟩
  cases o with
  | none => rfl
  | some k =>
    simp only [trackedAt, learnAt]
    by_cases hk : k = i
    · subst hk
      rw [entryAt_editEntry_same]
      cases he : entryAt t k with
      | none => rfl
      | some e =>
        obtain ⟨hkey, hlock, hcell⟩ := learnEntry_other h (p.tAbs.get c) p.learnCount value volts cls e
        simp only [Option.map_some, readBaseline, hkey, hlock, hcell]
    · rw [entryAt_editEntry_other _ _ _ _ hk]

theorem learnSlot_handOver (h : d ≠ c) (p : Params) (volts : Nat) (t : Ldt) (v : SlotView) :
    SameHandOver d t (learnSlot p c volts t v) := by
  unfold learnSlot
  split
  · split
    · exact learnAt_handOver h _ p _ volts _ t
    · exact .refl d t
  · exact .refl d t

theorem foldl_learnSlot_handOver (h : d ≠ c) (p : Params) (volts : Nat) (views : List SlotView) (t : Ldt) :
    SameHandOver d t (views.foldl (learnSlot p c volts) t) := by
  induction views generalizing t with
  | nil => exact .refl d t
  | cons v views ih => exact (learnSlot_handOver h p volts t v).trans (ih _)

theorem learnAll_handOver {o : Offer} (h : d ≠ o.circuit) (p : Params) (views : List SlotView) (rem : Option Tracked)
    (r : Int) (t : Ldt) : SameHandOver d t (learnAll p o views rem r t) := by
  have hslots := foldl_learnSlot_handOver h p o.volts views t
  unfold learnAll
  simp only
  split
  · split
    · exact hslots.trans (learnAt_handOver h _ p _ _ _ _)
    · exact hslots
  · exact hslots

end

/-- A capture value leaves the service state and the target of the capture. -/
theorem captureAll_target (p : Params) (o : Offer) (views : List SlotView) (rem : Option Tracked) (r : Int) (v : Svc) :
    (captureAll p o views rem r v).state = v.state ∧
      (captureAll p o views rem r v).capture.map (·.target) = v.capture.map (·.target) := by
  unfold captureAll
  split
  · split
    · rename_i k hk
      split
      · exact ⟨rfl, by rw [hk]; rfl⟩
      · exact ⟨rfl, rfl⟩
    · exact ⟨rfl, rfl⟩
  · exact ⟨rfl, rfl⟩

/-! ### An offer judged in ACTIVE -/

theorem onFaults_awake (op : Flt → FltStep) {s : State} (h : s.pwc.power ≠ .standby) : (onFaults op s).pwc = s.pwc := by
  rw [onFaults_pwc, reportActivations_awake _ _ (by rwa [commitFaults_pwc]), commitFaults_pwc]

/-- The state a judged offer's hand-over leaves, before its learning and capture values. -/
def batchTaken (o : Offer) (s : State) : State :=
  onFaults (applyBatch s.params (judgementOf o s).batch) (setSummary o.circuit (summaryLeft o s) s)

theorem judge_taken {o : Offer} {s : State} (h : heldOf o s = .none) :
    (judge o s).pwc = (batchTaken o s).pwc ∧ (judge o s).hlc = (batchTaken o s).hlc := by
  rw [judge_made h, batchTaken]
  exact ⟨rfl, rfl⟩

theorem judge_awake (o : Offer) {s : State} (h : s.pwc.power ≠ .standby) : (judge o s).pwc = s.pwc := by
  by_cases hh : heldOf o s = .none
  · rw [(judge_taken hh).1, batchTaken, onFaults_awake]
    · rfl
    · exact h
  · rw [judge_held hh]
    rfl

theorem judge_says (o : Offer) (s : State) : Says [] s.hlc (judge o s).hlc := by
  by_cases hh : heldOf o s = .none
  · rw [(judge_taken hh).2]
    exact onFaults_says _ (setSummary o.circuit (summaryLeft o s) s)
  · rw [judge_held hh]
    exact .refl _

theorem judge_bare (o : Offer) (s : State) :
    bare (judge o s).flt = bare (applyBatch s.params (offered o s) s.flt).1 :=
  bare_eq_iff.2 (judge_faults o s)

/-- What an offer judged in ACTIVE learns and captures. -/
theorem judge_values (o : Offer) {s : State} (hs : s.pwc.standbyEntry = false) :
    (judge o s).ldt = (if heldOf o s = .none then
        learnAll s.params o (slotViews s o) (remainderView s o.circuit) (judgementOf o s).residual s.ldt else s.ldt) ∧
      (judge o s).svc = (if heldOf o s = .none then
        captureAll s.params o (slotViews s o) (remainderView s o.circuit) (judgementOf o s).residual s.svc
        else s.svc) := by
  by_cases hh : heldOf o s = .none
  · rw [judge_made hh, hs, if_pos hh, if_pos hh]
    exact ⟨rfl, rfl⟩
  · rw [judge_held hh, if_neg hh, if_neg hh]
    exact ⟨rfl, rfl⟩

/-! ### The circuits with a window to complete (R6) -/

section

variable (old new : FunctionWord) (b : State)

/-- A scan of this moment has filled the window of a circuit that gets an edge. -/
def isDue (c : Circuit) : Bool := itemOn old c != itemOn new c && scannedNow b.now (b.sfe.circuits.get c)

def dueOf (ks : List Circuit) : List Circuit := ks.filter (isDue old new b)

/-- Those of them that give an offer. -/
def onOf (ks : List Circuit) : List Circuit :=
  (dueOf old new b ks).filter fun c => (b.sfe.circuits.get c).phase = .onSettled

/-- The window a circuit has filled, with the time it carries. -/
def filled (c : Circuit) : Window × Nat := (b.sfe.circuits.get c).done.getD (Window.start 0, 0)

/-- The offer of a filled window. -/
def tellOffer (c : Circuit) : Offer := offerOf c (filled b c).1 (filled b c).2 (b.sfe.circuits.get c)

/-- A circuit behind the completion of its window. -/
def completedSense (c : Circuit) : CircuitSense :=
  let x := b.sfe.circuits.get c
  let w := (filled b c).1
  match x.phase with
  | .onSettled =>
    { x with done := none, nextStart := some (nextWindowStart b.params (filled b c).2), senseSat := w.saturated }
  | .offSettled =>
    { x with done := none, zero := min w.mean zeroMax, leak := decide (zeroMax < w.mean), senseSat := w.saturated }
  | _ => x

/-- The outcomes of the offers that nothing holds, in the order of the circuits. -/
def tellBatch (ks : List Circuit) : List Verdict :=
  (((onOf old new b ks).filter fun c => heldOf (tellOffer b c) b = .none).map fun c =>
    (judgementOf (tellOffer b c) b).batch).flatten

/-- What one offer has the Load Table learn. -/
def tellLearn (acc : Ldt) (c : Circuit) : Ldt :=
  if heldOf (tellOffer b c) b = .none then
    learnAll b.params (tellOffer b c) (slotViews b (tellOffer b c)) (remainderView b c)
      (judgementOf (tellOffer b c) b).residual acc
  else acc

/-- What one offer gives a capture. -/
def tellCapture (acc : Svc) (c : Circuit) : Svc :=
  if heldOf (tellOffer b c) b = .none then
    captureAll b.params (tellOffer b c) (slotViews b (tellOffer b c)) (remainderView b c)
      (judgementOf (tellOffer b c) b).residual acc
  else acc

/-- The state the completions of some circuits leave. -/
structure Scanned (ks : List Circuit) (t : State) : Prop where
  only : OnlyChanges [.sfe, .jge, .flt, .ldt, .dsr, .svc, .hlc] b t
  notices : Says [] b.hlc t.hlc
  sense : t.sfe = { b.sfe with
    circuits := t.sfe.circuits
    voltage := b.sfe.voltage || (onOf old new b ks).any fun c => outOfWindow (tellOffer b c).volts
    voltageMark := t.sfe.voltageMark }
  circuit : ∀ c, t.sfe.circuits.get c = if c ∈ dueOf old new b ks then completedSense b c else b.sfe.circuits.get c
  judged : t.jge = { b.jge with summaries := t.jge.summaries }
  summary : ∀ c, t.jge.summaries.get c =
    if c ∈ onOf old new b ks then some (summaryLeft (tellOffer b c) b) else b.jge.summaries.get c
  learned : t.ldt = (onOf old new b ks).foldl (tellLearn b) b.ldt
  captured : t.svc = (onOf old new b ks).foldl (tellCapture b) b.svc
  faults : bare t.flt = bare (applyBatch b.params (tellBatch old new b ks) b.flt).1

end

/-! ### One completion more -/

section

variable {old new : FunctionWord} {b t u : State} {ks : List Circuit} {c : Circuit}

theorem dueOf_snoc (h : isDue old new b c = true) : dueOf old new b (ks ++ [c]) = dueOf old new b ks ++ [c] := by
  simp [dueOf, List.filter_append, h]

theorem dueOf_snoc_not (h : isDue old new b c = false) : dueOf old new b (ks ++ [c]) = dueOf old new b ks := by
  simp [dueOf, List.filter_append, h]

theorem onOf_snoc (h : isDue old new b c = true) (hp : (b.sfe.circuits.get c).phase = .onSettled) :
    onOf old new b (ks ++ [c]) = onOf old new b ks ++ [c] := by
  simp [onOf, dueOf_snoc h, List.filter_append, hp]

theorem onOf_snoc_not (h : isDue old new b c = true) (hp : (b.sfe.circuits.get c).phase ≠ .onSettled) :
    onOf old new b (ks ++ [c]) = onOf old new b ks := by
  simp [onOf, dueOf_snoc h, List.filter_append, hp]

theorem tellBatch_snoc (h : isDue old new b c = true) (hp : (b.sfe.circuits.get c).phase = .onSettled) :
    tellBatch old new b (ks ++ [c]) = tellBatch old new b ks ++ offered (tellOffer b c) b := by
  by_cases hh : heldOf (tellOffer b c) b = .none <;>
    simp [tellBatch, onOf_snoc h hp, List.filter_append, offered, hh]

/-- The completions of the other circuits leave what a circuit is judged by. -/
theorem foldl_tellLearn_handOver (hc : ∀ d ∈ ks, d ≠ c) (l : Ldt) : SameHandOver c l (ks.foldl (tellLearn b) l) := by
  induction ks generalizing l with
  | nil => exact .refl c l
  | cons d ks ih =>
    have hfirst : SameHandOver c l (tellLearn b l d) := by
      unfold tellLearn
      split
      · exact learnAll_handOver (hc d List.mem_cons_self).symm _ _ _ _ _
      · exact .refl c l
    exact hfirst.trans (ih (fun x hx => hc x (List.mem_cons_of_mem d hx)) _)

theorem foldl_tellCapture_target (ks : List Circuit) (v : Svc) :
    (ks.foldl (tellCapture b) v).state = v.state ∧
      (ks.foldl (tellCapture b) v).capture.map (·.target) = v.capture.map (·.target) := by
  induction ks generalizing v with
  | nil => exact ⟨rfl, rfl⟩
  | cons d ks ih =>
    have hfirst : (tellCapture b v d).state = v.state ∧
        (tellCapture b v d).capture.map (·.target) = v.capture.map (·.target) := by
      unfold tellCapture
      split
      · exact captureAll_target _ _ _ _ _ _
      · exact ⟨rfl, rfl⟩
    obtain ⟨hs, ht⟩ := ih (tellCapture b v d)
    exact ⟨hs.trans hfirst.1, ht.trans hfirst.2⟩

theorem mem_of_mem_dueOf {d : Circuit} (h : d ∈ dueOf old new b ks) : d ∈ ks := (List.mem_filter.1 h).1

theorem exists_done_of_isDue (h : isDue old new b c = true) : ∃ d, (b.sfe.circuits.get c).done = some d := by
  obtain ⟨-, hscan⟩ := Bool.and_eq_true_iff.1 h
  obtain ⟨d, hd, -⟩ := (Option.any_eq_true _ _).1 hscan
  exact ⟨d, hd⟩

theorem mem_of_mem_onOf {d : Circuit} (h : d ∈ onOf old new b ks) : d ∈ ks :=
  (List.mem_filter.1 (List.mem_filter.1 h).1).1

theorem Scanned.reads (h : Scanned old new b ks t) (hc : c ∉ ks) : SameReads (o := tellOffer b c) b t := by
  have hclc : t.clc = b.clc := h.only .clc (by decide)
  have hparams : t.params = b.params := h.only .params (by decide)
  have hword : t.hlc.word = b.hlc.word := by rw [h.notices.only]
  have hand := foldl_tellLearn_handOver (b := b) (ks := onOf old new b ks) (c := c)
    (fun d hd => fun e => hc (e ▸ mem_of_mem_onOf hd)) b.ldt
  rw [← h.learned] at hand
  have hoc : (tellOffer b c).circuit = c := rfl
  exact ⟨by rw [h.judged], hword, by rw [hclc], by rw [hclc], hparams,
    fun i => by rw [hparams, hand.serving, hoc, hand.tracked]⟩

/-- The end of a completion's own event changes nothing of it. -/
theorem Scanned.finished (h : Scanned old new b ks t) (ha : b.pwc.power = .active) (hw : b.pwc.wake = false) :
    Scanned old new b ks (finish t) := by
  have hpwc : t.pwc = b.pwc := h.only .pwc (by decide)
  have honly := finish_only_active (hpwc ▸ ha) (hpwc ▸ hw)
  have hsfe : (finish t).sfe = t.sfe := honly .sfe (by decide)
  have hjge : (finish t).jge = t.jge := honly .jge (by decide)
  have hldt : (finish t).ldt = t.ldt := honly .ldt (by decide)
  have hsvc : (finish t).svc = t.svc := honly .svc (by decide)
  have hflt : (finish t).flt = t.flt := honly .flt (by decide)
  exact ⟨(h.only.trans honly).mono (by decide), h.notices.trans (finish_says t), by rw [hsfe]; exact h.sense,
    by rw [hsfe]; exact h.circuit, by rw [hjge]; exact h.judged, by rw [hjge]; exact h.summary,
    by rw [hldt]; exact h.learned, by rw [hsvc]; exact h.captured, by rw [hflt]; exact h.faults⟩

theorem filled_eq {win : Window} {n : Nat} (h : (b.sfe.circuits.get c).done = some (win, n)) :
    filled b c = (win, n) := by rw [filled, h]; rfl

/-- A circuit that gives no offer: its zero reference, where it is OFF-SETTLED. -/
theorem Scanned.zeroed (h : Scanned old new b ks t) (hc : c ∉ ks) (hdue : isDue old new b c = true)
    (hp : (b.sfe.circuits.get c).phase ≠ .onSettled) :
    Scanned old new b (ks ++ [c]) (completeWindow c (t.sfe.circuits.get c) t) := by
  have hx : t.sfe.circuits.get c = b.sfe.circuits.get c := by
    rw [h.circuit c, if_neg fun k => hc (mem_of_mem_dueOf k)]
  obtain ⟨⟨win, n⟩, hdone⟩ := exists_done_of_isDue hdue
  have hfilled := filled_eq hdone
  have hleft : ∃ cs, (∀ d, cs.get d = if d = c then completedSense b c else t.sfe.circuits.get d) ∧
      completeWindow c (t.sfe.circuits.get c) t = { t with
        sfe := { t.sfe with circuits := cs }
        hlc := { t.hlc with changes := (completeWindow c (t.sfe.circuits.get c) t).hlc.changes } } := by
    by_cases hoff : (b.sfe.circuits.get c).phase = .offSettled
    · have hwork : completeWindow c (t.sfe.circuits.get c) t = completeZero c win t := by
        simp only [completeWindow, hx, hoff, hdone]
      refine ⟨(completeZero c win t).sfe.circuits, fun d => ?_, ?_⟩
      · by_cases hd : d = c
        · subst hd
          simp [completeZero_eq, markIf_eq, setCircuit, PerCircuit.get_set_same, completedSense, hoff, hfilled, hx]
        · simp [completeZero_eq, markIf_eq, setCircuit, PerCircuit.get_set_other _ _ _ _ hd, hd]
      · rw [hwork]
        simp [completeZero_eq, markIf_eq, setCircuit]
    · have hwork : completeWindow c (t.sfe.circuits.get c) t = t := by
        simp only [completeWindow, hx, hdone]
        cases hph : (b.sfe.circuits.get c).phase <;> simp_all
      rw [hwork]
      refine ⟨t.sfe.circuits, fun d => ?_, rfl⟩
      by_cases hd : d = c
      · subst hd
        rw [if_pos rfl, hx, completedSense]
        cases hph : (b.sfe.circuits.get d).phase <;> simp_all
      · rw [if_neg hd]
  obtain ⟨cs, hcs, heq⟩ := hleft
  obtain ⟨u, hu⟩ : ∃ u, u = completeWindow c (t.sfe.circuits.get c) t := ⟨_, rfl⟩
  rw [← hu] at heq ⊢
  have honly : OnlyChanges [.sfe, .hlc] t u := by
    rw [heq]
    exact .of_fields
  have hsfe : u.sfe = { t.sfe with circuits := cs } := by rw [heq]
  have hhlc : u.hlc = { t.hlc with changes := u.hlc.changes } := congrArg State.hlc heq
  have hjge : u.jge = t.jge := honly .jge (by decide)
  refine ⟨(h.only.trans honly).mono (by decide), ?_, ?_, fun d => ?_, ?_, ?_, ?_, ?_, ?_⟩
  · rw [hhlc]
    exact h.notices.trans (setChanges_says _ _)
  · rw [hsfe, onOf_snoc_not hdue hp]
    simp only
    rw [h.sense]
  · rw [hsfe, hcs, dueOf_snoc hdue, h.circuit d]
    by_cases hd : d = c <;> simp [hd]
  · rw [hjge]
    exact h.judged
  · rw [hjge, onOf_snoc_not hdue hp]
    exact h.summary
  · rw [onOf_snoc_not hdue hp, ← h.learned]
    exact honly .ldt (by decide)
  · rw [onOf_snoc_not hdue hp, ← h.captured]
    exact honly .svc (by decide)
  · rw [tellBatch, onOf_snoc_not hdue hp, show u.flt = t.flt from honly .flt (by decide)]
    exact h.faults

/-- A circuit that gives an offer: its window, and the offer judged. -/
theorem Scanned.offeredMore (h : Scanned old new b ks t) (hc : c ∉ ks) (hdue : isDue old new b c = true)
    (hp : (b.sfe.circuits.get c).phase = .onSettled) (ha : b.pwc.power = .active)
    (hs : b.pwc.standbyEntry = false) :
    Scanned old new b (ks ++ [c]) (completeWindow c (t.sfe.circuits.get c) t) := by
  have hx : t.sfe.circuits.get c = b.sfe.circuits.get c := by
    rw [h.circuit c, if_neg fun k => hc (mem_of_mem_dueOf k)]
  obtain ⟨⟨win, n⟩, hdone⟩ := exists_done_of_isDue hdue
  have hfilled := filled_eq hdone
  obtain ⟨o, ho⟩ : ∃ o, o = tellOffer b c := ⟨_, rfl⟩
  obtain ⟨v, hv⟩ : ∃ v, v = windowTaken c win n t := ⟨_, rfl⟩
  have hoc : o.circuit = c := congrArg Offer.circuit ho
  have hov : o.volts = win.supplyMean := by rw [ho, tellOffer, hfilled]; rfl
  have hoff : offerOf c win n (t.sfe.circuits.get c) = o := by rw [ho, tellOffer, hfilled, hx]
  have hwork : completeWindow c (t.sfe.circuits.get c) t = judge o v := by
    have heq : completeWindow c (t.sfe.circuits.get c) t = completeJudgement c win n t := by
      simp only [completeWindow, hx, hp, hdone]
    rw [heq, completeJudgement_eq, hoff, hv]
  have hvonly : OnlyChanges [.sfe, .hlc] t v := hv ▸ windowTaken_only c win n t
  have hvpwc : v.pwc = b.pwc := Eq.trans (hvonly .pwc (by decide)) (h.only .pwc (by decide))
  have hvreads := windowTaken_reads c win n t
  rw [hoff, ← hv] at hvreads
  have hreads : SameReads (o := o) b v := by
    obtain ⟨h1, h2, h3, h4, h5, h6⟩ := ho ▸ h.reads hc
    obtain ⟨k1, k2, k3, k4, k5, k6⟩ := hvreads
    exact ⟨k1.trans h1, k2.trans h2, k3.trans h3, k4.trans h4, k5.trans h5, fun i => (k6 i).trans (h6 i)⟩
  have hoffered : offered o v = offered o b := by rw [offered, offered, hreads.held, hreads.judgement]
  have hvsfe := congrArg State.sfe (windowTaken_eq c win n t)
  rw [← hv, show t.params = b.params from h.only .params (by decide)] at hvsfe
  have hsfe : (judge o v).sfe = v.sfe := by rw [judge_eq]
  have hjge := judge_summaries o v
  rw [hreads.summary, hoc, show v.jge = t.jge from hvonly .jge (by decide)] at hjge
  obtain ⟨hldt, hsvc⟩ := judge_values o (s := v) (hvpwc ▸ hs)
  rw [hreads.held, hreads.judgement, hreads.views.1, hreads.views.2, hreads.params] at hldt hsvc
  have hawake := judge_awake o (s := v) (by rw [hvpwc, ha]; decide)
  have honly : OnlyChanges [.sfe, .jge, .flt, .ldt, .dsr, .svc, .hlc] t (judge o v) := by
    have hall := hvonly.trans (judge_only_made o v)
    intro x hx
    by_cases hxp : x = .pwc
    · subst hxp
      exact Eq.trans hawake (hvonly .pwc (by decide))
    · exact hall x (by simp only [List.mem_append, List.mem_cons, List.not_mem_nil, or_false] at hx ⊢; tauto)
  have hnext := applyBatch_alike b.params (offered o b) h.faults
  rw [hwork]
  refine ⟨(h.only.trans honly).mono (by decide), ?_, ?_, fun d => ?_, ?_, fun d => ?_, ?_, ?_, ?_⟩
  · have hhlc : v.hlc = { t.hlc with changes := v.hlc.changes } := by
      have h1 := congrArg State.hlc (windowTaken_eq c win n t)
      rw [← hv] at h1
      exact h1
    have hvsays : Says [] t.hlc v.hlc := hhlc ▸ setChanges_says _ _
    exact h.notices.trans (hvsays.trans (judge_says o v))
  · rw [hsfe, hvsfe, onOf_snoc hdue hp, List.any_append, ← Bool.or_assoc]
    simp only
    rw [h.sense]
    simp [← ho, hov]
  · rw [hsfe, hvsfe, dueOf_snoc hdue]
    by_cases hd : d = c
    · subst hd
      simp [PerCircuit.get_set_same, completedSense, hp, hfilled, hx]
    · simp [PerCircuit.get_set_other _ _ _ _ hd, h.circuit d, hd]
  · rw [hjge]
    simp only
    rw [h.judged]
  · rw [hjge, onOf_snoc hdue hp]
    by_cases hd : d = c
    · subst hd
      simp [PerCircuit.get_set_same, ho]
    · simp [PerCircuit.get_set_other _ _ _ _ hd, h.summary d, hd]
  · rw [hldt, onOf_snoc hdue hp, List.foldl_append, ← h.learned, show v.ldt = t.ldt from hvonly .ldt (by decide), hoc,
      ho]
    rfl
  · rw [hsvc, onOf_snoc hdue hp, List.foldl_append, ← h.captured, show v.svc = t.svc from hvonly .svc (by decide), hoc,
      ho]
    rfl
  · rw [judge_bare, hoffered, hreads.params, show v.flt = t.flt from hvonly .flt (by decide), tellBatch_snoc hdue hp,
      applyBatch_joined, ← ho]
    exact hnext.1

/-- The completions of a tell, circuit by circuit (R6). -/
theorem foldl_completeScanned (ha : b.pwc.power = .active) (hw : b.pwc.wake = false)
    (hs : b.pwc.standbyEntry = false) (hn : ks.Nodup) :
    Scanned old new b ks (ks.foldl (completeScanned old new) b) := by
  induction ks using List.reverseRecOn with
  | nil =>
    exact ⟨(OnlyChanges.refl b).mono (by simp), .refl _, by simp [onOf, dueOf], by simp [dueOf], rfl,
      by simp [onOf, dueOf], rfl, rfl, rfl⟩
  | append_singleton ks c ih =>
    obtain ⟨hks, -, hc⟩ := List.nodup_append.1 hn
    have hnot : c ∉ ks := fun h => hc c h c (List.mem_singleton.2 rfl) rfl
    have hprev := ih hks
    rw [List.foldl_append, List.foldl_cons, List.foldl_nil]
    obtain ⟨t, ht⟩ : ∃ t, t = ks.foldl (completeScanned old new) b := ⟨_, rfl⟩
    rw [← ht] at hprev ⊢
    have hx : t.sfe.circuits.get c = b.sfe.circuits.get c := by
      rw [hprev.circuit c, if_neg fun k => hnot (mem_of_mem_dueOf k)]
    have hstep : completeScanned old new t c =
        if isDue old new b c then finish (completeWindow c (t.sfe.circuits.get c) t) else t := by
      simp only [completeScanned, isDue, hx, show t.now = b.now from hprev.only .now (by decide)]
    rw [hstep]
    cases hdue : isDue old new b c with
    | false =>
      have hon : onOf old new b (ks ++ [c]) = onOf old new b ks := by rw [onOf, dueOf_snoc_not hdue]; rfl
      refine ⟨hprev.only, hprev.notices, ?_, ?_, hprev.judged, ?_, ?_, ?_, ?_⟩
      · rw [hon]
        exact hprev.sense
      · rw [dueOf_snoc_not hdue]
        exact hprev.circuit
      · rw [hon]
        exact hprev.summary
      · rw [hon]
        exact hprev.learned
      · rw [hon]
        exact hprev.captured
      · rw [tellBatch, hon]
        exact hprev.faults
    | true =>
      rw [if_pos rfl]
      by_cases hp : (b.sfe.circuits.get c).phase = .onSettled
      · exact (hprev.offeredMore hnot hdue hp ha hs).finished ha hw
      · exact (hprev.zeroed hnot hdue hp).finished ha hw

end

end Sys2Proof.Machine

end


/-! ### A FUNCTION tell -/

section

/-! PROOFS. O34. -/

namespace Sys2Proof.Machine

/-! ### The edges of a tell (R6, R12) -/

theorem enterPhase_congr {x y : CircuitSense} (ph : Phase) (hz : x.zero = y.zero) (hs : x.senseSat = y.senseSat)
    (hl : x.leak = y.leak) : enterPhase ph x = enterPhase ph y := by
  simp only [enterPhase, hz, hs, hl]

/-- Settling begins from a circuit's flags and zero reference alone. -/
theorem startSettling_congr {x y : CircuitSense} (on : Bool) (t settle : Nat) (hz : x.zero = y.zero)
    (hs : x.senseSat = y.senseSat) (hl : x.leak = y.leak) : startSettling on t settle x = startSettling on t settle y := by
  simp only [startSettling, enterSettled, fun ph => enterPhase_congr ph hz hs hl]

/-- The four phases edges act in. -/
def edgePhases : List Phase := [.offSettling, .offSettled, .onSettling, .onSettled]

theorem edgeCircuit_eq (p : Params) (now : Nat) (old new : FunctionWord) (c : Circuit) (x : CircuitSense) :
    edgeCircuit p now old new c x =
      if old.getLsbD c.val ≠ new.getLsbD c.val ∧ x.phase ∈ edgePhases then
        startSettling (new.getLsbD c.val) now (p.settle.get c) x
      else x := by
  unfold edgeCircuit itemOn
  by_cases h : old.getLsbD c.val = new.getLsbD c.val
  · rw [if_pos h, if_neg fun k => k.1 h]
  · rw [if_neg h]
    cases hp : x.phase <;> simp [edgePhases, h]

/-! ### The watches of a tell (R77 to R79) -/

section

variable (s : State) (old new : FunctionWord) (c : Circuit)

/-- A watch behind the evaluation and the edges of a tell. -/
def toldWatch (ended : Bool) (x : Watch) : Watch :=
  let y := evaluateWatch s c x
  match y.armed with
  | some a => if !ended && !itemOn old c && itemOn new c then loadWatch s c a.period else y
  | none => y

theorem toldWatch_disarmed (ended : Bool) (x : Watch) (h : cadencePeriod s.jge.rules s.hlc.word c = none) :
    toldWatch s old new c ended x = { x with armed := none } := by
  unfold toldWatch evaluateWatch
  simp only [h, disarmWatch]

theorem loadWatch_eq (p : Nat) {v : Nat}
    (hv : v = if (c = 0 ∧ s.flt.fastLeft = true) ∨ (c = 1 ∧ s.flt.fastRight = true) then p / 2 else p) :
    loadWatch s c p = { armed := some { period := p, expires := s.now + ms v }, load := v } := by
  have hload : loadValue s.flt c p = v := by
    rw [hv, loadValue]
    simp [halved]
  simp only [loadWatch, hload]

theorem toldWatch_armed (ended : Bool) (x : Watch) {p v : Nat} (h : cadencePeriod s.jge.rules s.hlc.word c = some p)
    (hv : v = if (c = 0 ∧ s.flt.fastLeft = true) ∨ (c = 1 ∧ s.flt.fastRight = true) then p / 2 else p) :
    toldWatch s old new c ended x =
      match x.armed with
      | none => { armed := some { period := p, expires := s.now + ms v }, load := v }
      | some a =>
        if ended = false ∧ old.getLsbD c.val = false ∧ new.getLsbD c.val = true then
          { armed := some { period := p, expires := s.now + ms v }, load := v }
        else { x with armed := some { period := p, expires := a.expires } } := by
  have hload := loadWatch_eq s c p hv
  unfold toldWatch evaluateWatch
  cases hx : x.armed with
  | none =>
    simp only [h, hload]
    split <;> rfl
  | some a =>
    simp only [h, hload]
    have hiff : (!ended && !itemOn old c && itemOn new c) = true ↔
        ended = false ∧ old.getLsbD c.val = false ∧ new.getLsbD c.val = true := by
      simp [itemOn, and_assoc]
    simp only [hiff]

theorem toldWatch_isSome (ended : Bool) (x : Watch) :
    (toldWatch s old new c ended x).armed.isSome = (cadencePeriod s.jge.rules s.hlc.word c).isSome := by
  cases h : cadencePeriod s.jge.rules s.hlc.word c with
  | none => rw [toldWatch_disarmed s old new c ended x h]; rfl
  | some p =>
    rw [toldWatch_armed s old new c ended x h rfl]
    cases x.armed with
    | none => rfl
    | some a =>
      simp only
      split <;> rfl

end

/-- The watches' part of a tell without its outcomes. -/
def watchesTold (ended : Bool) (old new : FunctionWord) (s : State) : State :=
  setWatches (fun c x => toldWatch s old new c ended x) s

theorem watchesTold_only (ended : Bool) (old new : FunctionWord) (s : State) :
    OnlyChanges [.jge] s (watchesTold ended old new s) := by
  unfold watchesTold setWatches
  exact .of_fields

theorem watchesTold_eq (ended : Bool) (old new : FunctionWord) (s : State) :
    (if ended then evaluateWatches s else edgeLoads old new (evaluateWatches s)) = watchesTold ended old new s := by
  have hload : loadWatch (evaluateWatches s) = loadWatch s := rfl
  cases ended with
  | true =>
    simp only [if_true, watchesTold, evaluateWatches]
    refine congrArg (fun f => setWatches f s) (funext fun c => funext fun x => ?_)
    unfold toldWatch
    simp only [Bool.not_true, Bool.false_and]
    cases (evaluateWatch s c x).armed <;> rfl
  | false =>
    have hmap : (edgeLoads old new (evaluateWatches s)).jge.watches = (watchesTold false old new s).jge.watches := by
      refine PerCircuit.ext_get fun c => ?_
      simp only [edgeLoads, evaluateWatches, watchesTold, setWatches, PerCircuit.get_mapAt]
      unfold toldWatch
      simp only [Bool.not_false, Bool.true_and]
      cases (evaluateWatch s c (s.jge.watches.get c)).armed <;> rfl
    have hstate : edgeLoads old new (evaluateWatches s) =
        { s with jge := { s.jge with watches := (edgeLoads old new (evaluateWatches s)).jge.watches } } := rfl
    rw [if_neg (by decide), hstate, hmap]
    rfl

/-- The GOOD outcomes of a tell (R79, R81). -/
def toldGoods (ended : Bool) (old new : FunctionWord) (s : State) : List Verdict :=
  (allCircuits.filter fun c =>
    !ended && !itemOn old c && itemOn new c && (cadencePeriod s.jge.rules s.hlc.word c).isSome && !withheld s c).map
      fun c => cadenceVerdict c none

theorem edgeOutcomes_told (old new : FunctionWord) (s : State) :
    edgeOutcomes old new (watchesTold false old new s) = toldGoods false old new s := by
  refine congrArg (List.map _) (List.filter_congr fun c _ => ?_)
  have harmed : ((watchesTold false old new s).jge.watches.get c).armed.isSome =
      (cadencePeriod s.jge.rules s.hlc.word c).isSome := by
    simp only [watchesTold, setWatches, PerCircuit.get_mapAt, toldWatch_isSome]
  have hheld : withheld (watchesTold false old new s) c = withheld s c := rfl
  rw [harmed, hheld]
  rfl

theorem toldGoods_ended (old new : FunctionWord) (s : State) : toldGoods true old new s = [] := by
  simp [toldGoods]

/-- What the watches' part of a tell leaves. -/
theorem watchTell_leaves (ended : Bool) (old new : FunctionWord) (s : State) :
    (watchTell ended old new s).jge = (watchesTold ended old new s).jge ∧
      bare (watchTell ended old new s).flt = bare (applyBatch s.params (toldGoods ended old new s) s.flt).1 ∧
      Says [] s.hlc (watchTell ended old new s).hlc ∧
      (s.pwc.power ≠ .standby → OnlyChanges [.jge, .flt, .dsr, .hlc] s (watchTell ended old new s)) := by
  have htold := watchesTold_eq ended old new s
  have honly := watchesTold_only ended old new s
  have hquiet : ∀ u, u = watchesTold ended old new s → toldGoods ended old new s = [] →
      u.jge = (watchesTold ended old new s).jge ∧
        bare u.flt = bare (applyBatch s.params (toldGoods ended old new s) s.flt).1 ∧ Says [] s.hlc u.hlc ∧
        (s.pwc.power ≠ .standby → OnlyChanges [.jge, .flt, .dsr, .hlc] s u) := by
    intro u hu hn
    rw [hu, hn]
    exact ⟨rfl, rfl, .refl _, fun _ => honly.mono (by simp)⟩
  cases ended with
  | true => exact hquiet _ htold (toldGoods_ended old new s)
  | false =>
    rw [if_neg (by decide)] at htold
    have hgoods := edgeOutcomes_told old new s
    cases hg : toldGoods false old new s with
    | nil =>
      refine hg ▸ hquiet _ ?_ hg
      rw [watchTell, if_neg (by decide)]
      simp only [htold, hgoods, hg]
    | cons v vs =>
      obtain ⟨t, ht⟩ : ∃ t, t = watchesTold false old new s := ⟨_, rfl⟩
      have hwork : watchTell false old new s = onFaults (applyBatch t.params (v :: vs)) t := by
        rw [watchTell, if_neg (by decide)]
        simp only [htold, hgoods, hg, ht]
      have hall := onFaults_only (applyBatch t.params (v :: vs)) t
      rw [← ht] at honly
      rw [hwork, ← ht]
      refine ⟨hall .jge (by decide), ?_, ?_, fun hp => ?_⟩
      · rw [bare_onFaults, show t.params = s.params from honly .params (by decide),
          show t.flt = s.flt from honly .flt (by decide)]
      · have h := onFaults_says (applyBatch t.params (v :: vs)) t
        rw [show t.hlc = s.hlc from honly .hlc (by decide)] at h
        exact h
      · have hawake := onFaults_awake (applyBatch t.params (v :: vs)) (s := t)
          (by rw [show t.pwc = s.pwc from honly .pwc (by decide)]; exact hp)
        have hboth := honly.trans hall
        intro x hx
        by_cases hxp : x = .pwc
        · subst hxp
          exact Eq.trans hawake (honly .pwc (by decide))
        · exact hboth x (by simp only [List.mem_append, List.mem_cons, List.not_mem_nil, or_false] at hx ⊢; tauto)

/-- GOOD outcomes make no record ACTIVE for the first time (R111). -/
theorem applyBatch_goods_activation (p : Params) {vs : List Verdict} (h : ∀ v ∈ vs, v.kind = none) (f : Flt) :
    (applyBatch p vs f).1.activation = f.activation := by
  induction vs generalizing f with
  | nil => rfl
  | cons v vs ih =>
    rw [applyBatch_first]
    simp only
    rw [ih fun x hx => h x (List.mem_cons_of_mem v hx)]
    have hdrop : ∀ (i : Nat) (f : Flt), (dropRecord i f).activation = f.activation := fun _ _ => rfl
    have hheal : ∀ (i : Nat) (r : FaultRecord) (f : Flt), (healed p i r f).1.activation = f.activation := by
      intro i r f
      unfold healed
      cases r.state with
      | suspect => rfl
      | active =>
        simp only
        split <;> rfl
      | healing =>
        simp only
        split <;> rfl
    have hk := h v List.mem_cons_self
    unfold applyVerdict
    cases findRecord f v.key with
    | none => simp only [hk]
    | some i =>
      cases recordOf f v.key with
      | none => simp only [hk]
      | some r =>
        simp only [hk]
        exact hheal _ _ _

/-! ### The word and the COUPLED edge (R170, R22) -/

theorem acceptWord_eq (new : FunctionWord) (s : State) :
    acceptWord new s =
      { s with hlc := { s.hlc with
        word := new, previous := s.hlc.word, lastTell := s.now, firstTell := false, stale := false
        changes := (acceptWord new s).hlc.changes } } := by
  simp [acceptWord, setStale, markIf_eq]

theorem wordOf_pair (h l : Byte) : wordOf [h, l] = h ++ l := by
  apply BitVec.eq_of_toNat_eq
  have hn : numberAt [h, l] 0 2 = h.toNat * 256 + l.toNat := by
    simp [numberAt, bigEndian]
  rw [wordOf, hn, BitVec.toNat_ofNat, BitVec.toNat_append, ← Nat.shiftLeft_add_eq_or_of_lt l.isLt,
    Nat.shiftLeft_eq]
  have hh := h.isLt
  have hl := l.isLt
  omega

theorem censusEndsCapture_says (s : State) :
    Says (if s.svc.state = .capturing then
        [.serviceDone .commission (.subject (s.svc.capture.elim .remainder (·.target))) .aborted none] else [])
      s.hlc (censusEndsCapture s).hlc := by
  unfold censusEndsCapture
  split
  · exact endCapture_says .aborted s
  · exact .refl _

theorem coupledEdge_leaves {s : State} (h : s.pwc.power = .active) :
    (coupledEdge s).clc = censusStarted s.now { s.clc with coupling := true } ∧
      (coupledEdge s).svc = captureAborted s.svc ∧
      Says (if s.svc.state = .capturing then
          [.serviceDone .commission (.subject (s.svc.capture.elim .remainder (·.target))) .aborted none] else [])
        s.hlc (coupledEdge s).hlc ∧
      OnlyChanges [.clc, .svc, .hlc] s (coupledEdge s) := by
  obtain ⟨t, ht⟩ : ∃ t, t = setClc { s.clc with coupling := true } s := ⟨_, rfl⟩
  have hwork : coupledEdge s = startCensus t := by
    rw [ht]
    exact if_pos h
  have honly : OnlyChanges [.clc] s t := by
    rw [ht]
    exact .of_fields
  obtain ⟨hclc, hsvc, hall⟩ := startCensus_leaves t
  have hsays := censusEndsCapture_says (setClc (censusStarted t.now t.clc) t)
  rw [← startCensus_started] at hsays
  rw [hwork]
  refine ⟨?_, ?_, ?_, (honly.trans hall).mono (by simp)⟩
  · rw [hclc, ht]
    rfl
  · rw [hsvc, ht]
    rfl
  · rw [ht] at hsays ⊢
    exact hsays

end Sys2Proof.Machine

end


/-! ### A FUNCTION tell: its stages and its end -/

section

/-! PROOFS. O34. -/

namespace Sys2Proof.Machine

/-! ### The stages of a tell (R6, R170) -/

section

variable (w : FunctionWord) (s : State)

/-- Behind the completions that come first. -/
def tellScanned : State := scanFirst s.hlc.stale s.hlc.word w (restartSilence s)

/-- Behind the word and the circuits' edges. -/
def tellSensed : State := senseTell s.hlc.stale s.hlc.word w (acceptWord w (tellScanned w s))

/-- Behind the watches. -/
def tellWatched : State := watchTell s.hlc.stale s.hlc.word w (tellSensed w s)

/-- Behind the COUPLED edge. -/
def tellDone : State := chainTell s.hlc.firstTell s.hlc.word w (tellWatched w s)

/-- The circuits whose completions a tell looks for: none where it ends staleness. -/
def tellCircuits : List Circuit := if s.hlc.stale then [] else allCircuits

/-- The circuits with a window to complete before the edges. -/
def tellDue : List Circuit := dueOf s.hlc.word w (restartSilence s) (tellCircuits s)

/-- Those of them that give an offer. -/
def tellOn : List Circuit := onOf s.hlc.word w (restartSilence s) (tellCircuits s)

theorem tellDue_eq :
    tellDue w s = allCircuits.filter fun c =>
      !s.hlc.stale && (s.hlc.word.getLsbD c.val != w.getLsbD c.val) &&
        (s.sfe.circuits.get c).done.any fun d => d.2 = s.now + 2000 := by
  cases hs : s.hlc.stale with
  | true => simp [tellDue, tellCircuits, dueOf, hs]
  | false =>
    simp only [tellDue, tellCircuits, dueOf, hs, Bool.not_false, Bool.true_and]
    rfl

end

section

variable {w : FunctionWord} {s : State}

theorem tellScanned_scanned (h : Listening s) :
    Scanned s.hlc.word w (restartSilence s) (tellCircuits s) (tellScanned w s) := by
  have hw := h.wake
  obtain ⟨-, -, hs, ha, -⟩ := h
  unfold tellScanned tellCircuits scanFirst
  cases s.hlc.stale with
  | true =>
    rw [if_pos rfl, if_pos rfl]
    exact foldl_completeScanned (ks := []) ha hw hs List.nodup_nil
  | false =>
    rw [if_neg (by decide), if_neg (by decide)]
    exact foldl_completeScanned ha hw hs (by decide)

theorem tellScanned_noneDue (h : tellDue w s = []) : (tellScanned w s).flt = s.flt := by
  cases hs : s.hlc.stale with
  | true => rw [tellScanned, hs]; rfl
  | false =>
    have hnone : tellScanned w s = restartSilence s := by
      refine scanFirst_noneDue _ _ _ _ fun c hc => ?_
      have hdue : isDue s.hlc.word w (restartSilence s) c = false := by
        rw [tellDue, tellCircuits, hs, dueOf, List.filter_eq_nil_iff] at h
        simpa using h c (mem_allCircuits c)
      rw [isDue, bne_iff_ne.2 hc, Bool.true_and] at hdue
      exact hdue
    rw [hnone]
    rfl

/-- The word taken and the edges given: the circuits, the Host Link Controller, and nothing else. -/
theorem tellSensed_leaves (h : Listening s) :
    (tellSensed w s).sfe = { (tellScanned w s).sfe with
      circuits := (tellScanned w s).sfe.circuits.mapAt fun c x =>
        if s.hlc.stale then freshCircuit s.params s.now w c x else edgeCircuit s.params s.now s.hlc.word w c x } ∧
      (tellSensed w s).hlc = { s.hlc with
        sending := (tellScanned w s).hlc.sending, queue := (tellScanned w s).hlc.queue
        changes := (tellSensed w s).hlc.changes, word := w, previous := s.hlc.word, lastTell := s.now, stale := false
        firstTell := false, silence := some (s.now + silencePeriod) } ∧
      OnlyChanges [.sfe, .hlc] (tellScanned w s) (tellSensed w s) := by
  have hscan := tellScanned_scanned (w := w) h
  obtain ⟨t, ht⟩ : ∃ t, t = tellScanned w s := ⟨_, rfl⟩
  have hnow : t.now = s.now := by rw [ht]; exact hscan.only .now (by decide)
  have hparams : t.params = s.params := by rw [ht]; exact hscan.only .params (by decide)
  have hhlc : t.hlc = { (restartSilence s).hlc with
      sending := t.hlc.sending, queue := t.hlc.queue, changes := t.hlc.changes } := by
    rw [ht]
    exact hscan.notices.only
  obtain ⟨v, hv⟩ : ∃ v, v = acceptWord w t := ⟨_, rfl⟩
  have hveq := acceptWord_eq w t
  rw [← hv] at hveq
  have hvonly : OnlyChanges [.hlc] t v := by
    rw [hveq]
    exact .of_fields
  have hvhlc : v.hlc = { s.hlc with
      sending := t.hlc.sending, queue := t.hlc.queue, changes := v.hlc.changes, word := w, previous := s.hlc.word
      lastTell := s.now, stale := false, firstTell := false, silence := some (s.now + silencePeriod) } := by
    have h1 := congrArg State.hlc hveq
    refine h1.trans ?_
    rw [hnow, hhlc]
    rfl
  have hsense : tellSensed w s = { v with
      sfe := { v.sfe with
        circuits := v.sfe.circuits.mapAt fun c x =>
          if s.hlc.stale then freshCircuit v.params v.now w c x else edgeCircuit v.params v.now s.hlc.word w c x } } := by
    rw [hv, ht]
    rfl
  rw [← ht, hsense]
  refine ⟨?_, hvhlc, (hvonly.trans (OnlyChanges.of_fields (bs := [.sfe]))).mono (by simp)⟩
  rw [show v.sfe = t.sfe from hvonly .sfe (by decide), show v.now = s.now from
    Eq.trans (hvonly .now (by decide)) hnow, show v.params = s.params from
    Eq.trans (hvonly .params (by decide)) hparams]

end

/-! ### The COUPLED edge (R22, R29) -/

theorem chainTell_leaves {s : State} (h : s.pwc.power = .active) (first : Bool) (old new : FunctionWord) :
    Says (if first = false ∧ old.getLsbD 14 ≠ new.getLsbD 14 ∧ s.svc.state = .capturing then
        [.serviceDone .commission (.subject (s.svc.capture.elim .remainder (·.target))) .aborted none] else [])
      s.hlc (chainTell first old new s).hlc ∧
    OnlyChanges [.clc, .svc, .hlc] s (chainTell first old new s) ∧
    (first = true ∨ old.getLsbD 14 = new.getLsbD 14 → chainTell first old new s = s) ∧
    (first = false → old.getLsbD 14 ≠ new.getLsbD 14 →
      (chainTell first old new s).clc = censusStarted s.now { s.clc with coupling := true } ∧
        (chainTell first old new s).svc = captureAborted s.svc) := by
  by_cases he : first = false ∧ old.getLsbD 14 ≠ new.getLsbD 14
  · have hedge : (!first && coupledChanged old new) = true := by
      rw [he.1, coupledChanged, bne_iff_ne.2 he.2]
      rfl
    have hwork : chainTell first old new s = coupledEdge s := if_pos hedge
    obtain ⟨hclc, hsvc, hsays, honly⟩ := coupledEdge_leaves h
    rw [hwork]
    refine ⟨?_, honly, fun hn => ?_, fun _ _ => ⟨hclc, hsvc⟩⟩
    · simp only [he.1, he.2, ne_eq, not_false_eq_true, true_and]
      exact hsays
    · rcases hn with hn | hn
      · exact absurd (he.1.symm.trans hn) (by decide)
      · exact absurd hn he.2
  · have hwork : chainTell first old new s = s := by
      refine if_neg fun k => he ?_
      simpa [coupledChanged] using k
    rw [hwork, if_neg fun k => he ⟨k.1, k.2.1⟩]
    exact ⟨.refl _, (OnlyChanges.refl s).mono (by simp), fun _ => rfl, fun h1 h2 => absurd ⟨h1, h2⟩ he⟩

/-! ### The circuits of a tell -/

section

variable {w : FunctionWord} {s : State} {c : Circuit} {x y : CircuitSense}

/-- The flags and the zero reference of a circuit behind the completion that comes first. -/
theorem tellScanned_flags (h : Listening s) (hx : x = s.sfe.circuits.get c)
    (hy : y = (match x.done with
      | some (win, _) =>
        if c ∈ tellDue w s ∧ x.phase = .offSettled then
          { x with zero := min ((2 * win.sumCurrent + win.len) / (2 * win.len)) 500
                   leak := decide (500 < (2 * win.sumCurrent + win.len) / (2 * win.len))
                   senseSat := win.saturated }
        else if c ∈ tellOn w s then { x with senseSat := win.saturated } else x
      | none => x)) :
    ((tellScanned w s).sfe.circuits.get c).zero = y.zero ∧
      ((tellScanned w s).sfe.circuits.get c).senseSat = y.senseSat ∧
      ((tellScanned w s).sfe.circuits.get c).leak = y.leak ∧
      ((tellScanned w s).sfe.circuits.get c).phase = x.phase ∧
      (c ∉ tellDue w s ∨ x.phase ∉ edgePhases → (tellScanned w s).sfe.circuits.get c = x) := by
  have hz : (tellScanned w s).sfe.circuits.get c =
      if c ∈ tellDue w s then completedSense (restartSilence s) c else x := by
    rw [hx]
    exact (tellScanned_scanned h).circuit c
  have hon : c ∈ tellOn w s ↔ c ∈ tellDue w s ∧ x.phase = .onSettled := by
    rw [hx]
    simp only [tellOn, onOf, List.mem_filter, decide_eq_true_eq]
    exact Iff.rfl
  rw [hz]
  by_cases hdue : c ∈ tellDue w s
  · obtain ⟨⟨win, n⟩, hdone⟩ := exists_done_of_isDue (List.mem_filter.1 hdue).2
    have hfilled : filled (restartSilence s) c = (win, n) := filled_eq hdone
    have hxdone : x.done = some (win, n) := by rw [hx]; exact hdone
    have hsense : (restartSilence s).sfe.circuits.get c = x := hx.symm
    rw [hxdone] at hy
    simp only [hdue, true_and, hon] at hy
    rw [if_pos hdue]
    unfold completedSense
    simp only [hfilled, hsense]
    cases hp : x.phase with
    | offSettled =>
      rw [hp, if_pos rfl] at hy
      rw [hy]
      exact ⟨rfl, rfl, rfl, rfl, fun k => absurd k (by simp [edgePhases, hdue])⟩
    | onSettled =>
      rw [hp, if_neg (by decide), if_pos rfl] at hy
      rw [hy]
      exact ⟨rfl, rfl, rfl, rfl, fun k => absurd k (by simp [edgePhases, hdue])⟩
    | waiting | offSettling | onSettling | parkedOn | parkedOff =>
      rw [hp, if_neg (by decide), if_neg (by decide)] at hy
      rw [hy]
      exact ⟨rfl, rfl, rfl, hp, fun _ => rfl⟩
  · have hyx : y = x := by
      rw [hy]
      cases x.done with
      | none => rfl
      | some d => simp only [hdue, false_and, if_false, hon]
    rw [if_neg hdue, hyx]
    exact ⟨rfl, rfl, rfl, rfl, fun _ => rfl⟩

end

end Sys2Proof.Machine

end


/-! ### A FUNCTION tell as a whole -/

section

/-! PROOFS. O34. -/

namespace Sys2Proof.Machine

section

variable {w : FunctionWord} {s : State}

/-- The tell's end: the event, its stages' leavings, and what has been said. -/
theorem tellDone_leaves (h : Listening s) {t : State} (ht : t = finish (tellDone w s)) :
    t.sfe = (tellSensed w s).sfe ∧ t.jge = (watchesTold s.hlc.stale s.hlc.word w (tellSensed w s)).jge ∧
      t.ldt = (tellScanned w s).ldt ∧
      bare t.flt = bare (applyBatch s.params (toldGoods s.hlc.stale s.hlc.word w (tellSensed w s))
        (tellScanned w s).flt).1 ∧
      OnlyChanges [.sfe, .jge, .clc, .flt, .ldt, .dsr, .hlc, .svc] s t ∧
      (s.hlc.firstTell = true ∨ s.hlc.word.getLsbD 14 = w.getLsbD 14 →
        t.clc = s.clc ∧ t.svc = (tellScanned w s).svc) ∧
      (s.hlc.firstTell = false → s.hlc.word.getLsbD 14 ≠ w.getLsbD 14 →
        t.clc = censusStarted s.now { s.clc with coupling := true } ∧
          t.svc = captureAborted (tellScanned w s).svc) ∧
      (tellDone w s).hlc.buffer = none ∧
      t.hlc = { s.hlc with
        sending := t.hlc.sending, queue := t.hlc.queue, changes := []
        word := w, previous := s.hlc.word, lastTell := s.now, stale := false, firstTell := false
        silence := some (s.now + silencePeriod) } ∧
      replies t.hlc = replies s.hlc ++
        (if s.hlc.firstTell = false ∧ s.hlc.word.getLsbD 14 ≠ w.getLsbD 14 ∧ (tellScanned w s).svc.state = .capturing
          then [.serviceDone .commission
            (.subject ((tellScanned w s).svc.capture.elim .remainder (·.target))) .aborted none] else []) := by
  have hscan := tellScanned_scanned (w := w) h
  obtain ⟨hsfe, hhlc, hsensed⟩ := tellSensed_leaves (w := w) h
  have hwake := h.wake
  obtain ⟨-, -, -, ha, ⟨hproc, hbuf, -⟩, -, -, -⟩ := h
  obtain ⟨a, haeq⟩ : ∃ a, a = tellScanned w s := ⟨_, rfl⟩
  obtain ⟨b, hb⟩ : ∃ b, b = tellSensed w s := ⟨_, rfl⟩
  obtain ⟨e, he⟩ : ∃ e, e = tellWatched w s := ⟨_, rfl⟩
  obtain ⟨u, hu⟩ : ∃ u, u = tellDone w s := ⟨_, rfl⟩
  rw [← haeq] at hscan hhlc hsfe hsensed
  rw [← hb] at hhlc hsfe hsensed
  rw [← haeq, ← hb, ← hu]
  rw [← hu] at ht
  have hsa : OnlyChanges [.sfe, .jge, .flt, .ldt, .dsr, .svc, .hlc] s a :=
    ((restartSilence_only s).trans hscan.only).mono (by simp)
  have hbonly := hsa.trans hsensed
  have hbpwc : b.pwc = s.pwc := hbonly .pwc (by simp)
  obtain ⟨hjge, hbare, hsaysW, hwatched⟩ := watchTell_leaves s.hlc.stale s.hlc.word w b
  have hwork : watchTell s.hlc.stale s.hlc.word w b = e := by rw [he, hb]; rfl
  rw [hwork] at hjge hbare hsaysW hwatched
  have hbe := hwatched (by rw [hbpwc, ha]; decide)
  have hepwc : e.pwc = s.pwc := Eq.trans (hbe .pwc (by simp)) hbpwc
  obtain ⟨hsaysC, hchained, hplain, hcoupled⟩ :=
    chainTell_leaves (s := e) (by rw [hepwc]; exact ha) s.hlc.firstTell s.hlc.word w
  have hdone : chainTell s.hlc.firstTell s.hlc.word w e = u := by rw [hu, he]; rfl
  rw [hdone] at hsaysC hchained hplain hcoupled
  have hupwc : u.pwc = s.pwc := Eq.trans (hchained .pwc (by simp)) hepwc
  have huactive : u.pwc.power = .active := by rw [hupwc]; exact ha
  have hend := finish_only_active huactive (show u.pwc.wake = false by rw [hupwc]; exact hwake)
  rw [← ht] at hend
  have hesvc : e.svc = a.svc := Eq.trans (hbe .svc (by simp)) (hsensed .svc (by simp))
  have hsays : Says _ b.hlc t.hlc := (hsaysW.trans hsaysC).trans (ht ▸ finish_says u)
  have huhlc := (hsaysW.trans hsaysC).only
  rw [hhlc] at huhlc
  have hchanges : t.hlc.changes = [] := by
    rw [ht]
    refine finish_changes_active huactive ?_
    rw [waking, huhlc]
    simp [hproc, hbuf]
  have hbreplies : replies b.hlc = replies s.hlc := by
    have h1 := hscan.notices.replies
    rw [List.append_nil] at h1
    refine Eq.trans ?_ h1
    rw [hhlc]
    rfl
  have hclc : e.clc = s.clc := Eq.trans (hbe .clc (by simp)) (hbonly .clc (by simp))
  have henow : e.now = s.now := Eq.trans (hbe .now (by simp)) (hbonly .now (by simp))
  refine ⟨?_, ?_, ?_, ?_, ?_, fun hn => ⟨?_, ?_⟩, fun h1 h2 => ⟨?_, ?_⟩, ?_, ?_, ?_⟩
  · exact Eq.trans (hend .sfe (by simp)) (Eq.trans (hchained .sfe (by simp)) (hbe .sfe (by simp)))
  · exact Eq.trans (hend .jge (by simp)) (Eq.trans (hchained .jge (by simp)) hjge)
  · exact Eq.trans (hend .ldt (by simp)) (Eq.trans (hchained .ldt (by simp))
      (Eq.trans (hbe .ldt (by simp)) (hsensed .ldt (by simp))))
  · rw [show t.flt = e.flt from Eq.trans (hend .flt (by simp)) (hchained .flt (by simp)), hbare,
      show b.flt = a.flt from hsensed .flt (by simp), show b.params = s.params from hbonly .params (by simp)]
  · have hall := ((hbonly.trans hbe).trans hchained).trans hend
    exact hall.mono (by simp)
  · rw [show t.clc = u.clc from hend .clc (by simp), hplain hn, hclc]
  · rw [show t.svc = u.svc from hend .svc (by simp), hplain hn, hesvc]
  · rw [show t.clc = u.clc from hend .clc (by simp), (hcoupled h1 h2).1, hclc, henow]
  · rw [show t.svc = u.svc from hend .svc (by simp), (hcoupled h1 h2).2, hesvc]
  · rw [huhlc]
    exact hbuf
  · have hall := hsays.only
    rw [hchanges, hhlc] at hall
    exact hall
  · rw [hsays.replies, hbreplies, List.append_nil, List.nil_append, hesvc]

/-- What the completions of a tell leave of a capture is its state and its target. -/
theorem tellScanned_capture (h : Listening s) :
    (tellScanned w s).svc.state = s.svc.state ∧
      (tellScanned w s).svc.capture.elim Subject.remainder (·.target) =
        s.svc.capture.elim Subject.remainder (·.target) := by
  have hscan := tellScanned_scanned (w := w) h
  obtain ⟨hs, ht⟩ := foldl_tellCapture_target (b := restartSilence s)
    (onOf s.hlc.word w (restartSilence s) (tellCircuits s)) (restartSilence s).svc
  rw [← hscan.captured] at hs ht
  refine ⟨hs, ?_⟩
  have helim : ∀ k : Option Capture, k.elim Subject.remainder (·.target) = (k.map (·.target)).getD .remainder := by
    intro k
    cases k <;> rfl
  rw [helim, helim, ht]
  rfl

end

/-- Settles O34: the completions first, then the word and its readers in turn. -/
theorem aFunctionTellChangesTheWord : Obligations.AFunctionTellChangesTheWord := by
  intro h l w s hl hw
  obtain ⟨t, ht⟩ : ∃ t, t = finish (tellDone w s) := ⟨_, rfl⟩
  obtain ⟨hsfe, hjge, hldt, hflt, honly, hplain, hcoupled, hbuffer, hhlc, hreplies⟩ := tellDone_leaves hl ht
  have hscan := tellScanned_scanned (w := w) hl
  obtain ⟨hssfe, hshlc, hsensed⟩ := tellSensed_leaves (w := w) hl
  obtain ⟨hstate, htarget⟩ := tellScanned_capture (w := w) hl
  have hword : (tellSensed w s).hlc.word = w := by rw [hshlc]
  have hsjge : (tellSensed w s).jge = (tellScanned w s).jge := hsensed .jge (by simp)
  have hsflt : (tellSensed w s).flt = (tellScanned w s).flt := hsensed .flt (by simp)
  have hsnow : (tellSensed w s).now = s.now := Eq.trans (hsensed .now (by simp)) (hscan.only .now (by simp))
  have hsclc : (tellSensed w s).clc = s.clc := Eq.trans (hsensed .clc (by simp)) (hscan.only .clc (by simp))
  have hrules : (tellSensed w s).jge.rules = s.jge.rules := by rw [hsjge, hscan.judged]; rfl
  have hwatches : (tellSensed w s).jge.watches = s.jge.watches := by rw [hsjge, hscan.judged]; rfl
  have hexec : exec (.function [h, l]) s = .next t := by
    refine congrArg Host.Outcome.next ?_
    rw [wordOf_pair, ← hw]
    exact (hostRecord_listening _ _ s hl rfl rfl rfl hbuffer).trans ht.symm
  obtain ⟨hcontents, hactivation, hsaturated⟩ := bare_eq_iff.1 hscan.faults
  obtain ⟨htcontents, htactivation, htsaturated⟩ := bare_eq_iff.1 hflt
  have hgoods : ∀ v ∈ toldGoods s.hlc.stale s.hlc.word w (tellSensed w s), v.kind = none := by
    intro v hv
    obtain ⟨c, -, rfl⟩ := List.mem_map.1 hv
    rfl
  have htold : ∀ c, t.jge.watches.get c =
      toldWatch (tellSensed w s) s.hlc.word w c s.hlc.stale (s.jge.watches.get c) := by
    intro c
    rw [hjge, watchesTold, setWatches]
    simp only [PerCircuit.get_mapAt, hwatches]
  have hsummaries : t.jge.summaries = (tellScanned w s).jge.summaries := by rw [hjge, ← hsjge]; rfl
  have hvoltage : t.sfe.voltage = (tellScanned w s).sfe.voltage := by rw [hsfe, hssfe]
  refine ⟨tellDue w s, tellOn w s, tellOffer (restartSilence s), fun c => chooseAction s.jge.rules s.hlc.word c,
    fun c => heldOf (tellOffer (restartSilence s) c) (restartSilence s),
    fun c => judgementOf (tellOffer (restartSilence s) c) (restartSilence s),
    tellBatch s.hlc.word w (restartSilence s) (tellCircuits s),
    toldGoods s.hlc.stale s.hlc.word w (tellSensed w s), (tellScanned w s).flt, t, hexec, tellDue_eq w s, rfl,
    fun c x win d hx hd => ?_, fun c => rfl, fun c => ?_, fun c => rfl, rfl, tellScanned_noneDue, ?_, hcontents,
    hactivation, hsaturated, ?_, ?_, fun c x y hx hy => ⟨fun hs => ?_, fun hs => ?_⟩, ?_, fun c => ?_, ?_,
    fun c x hx => ⟨fun hp => ?_, fun p v hp hv => ?_⟩, ?_, htcontents, ?_, htsaturated, fun hs => ?_, ?_, hhlc,
    ⟨_, rfl, fun hn => ?_, fun h1 h2 => ?_⟩, honly⟩
  · subst hx
    rw [tellOffer, filled_eq (b := restartSilence s) hd]
    rfl
  · exact heldCause_eq _ _ _
  · exact (scanFirst_tame s.hlc.stale s.hlc.word w (restartSilence s)).tables.flash
  · rw [hsfe, hssfe, hscan.sense]
    rfl
  · rw [hvoltage, hscan.sense]
    simp only [outOfWindow_eq]
    rfl
  · rw [hsfe, hssfe]
    simp only [PerCircuit.get_mapAt, hs, if_true]
    have hnone : c ∉ tellDue w s := by simp [tellDue, tellCircuits, dueOf, hs]
    obtain ⟨-, -, -, -, hsame⟩ := tellScanned_flags hl hx hy
    rw [hsame (.inl hnone)]
    rfl
  · rw [hsfe, hssfe]
    simp only [PerCircuit.get_mapAt, hs]
    obtain ⟨hzero, hsat, hleak, hphase, hsame⟩ := tellScanned_flags hl hx hy
    rw [if_neg (by decide), edgeCircuit_eq, hphase]
    by_cases hedge : s.hlc.word.getLsbD c.val ≠ w.getLsbD c.val ∧ x.phase ∈ edgePhases
    · rw [if_pos hedge, startSettling_congr _ _ _ hzero hsat hleak]
      exact (if_pos hedge).symm
    · rw [if_neg hedge]
      refine Eq.trans (hsame ?_) (if_neg hedge).symm
      by_cases hbit : s.hlc.word.getLsbD c.val = w.getLsbD c.val
      · refine .inl fun hdue => ?_
        rw [tellDue_eq, List.mem_filter] at hdue
        simp [hbit] at hdue
      · exact .inr fun hp => hedge ⟨hbit, hp⟩
  · rw [hjge]
    have h1 : (watchesTold s.hlc.stale s.hlc.word w (tellSensed w s)).jge =
        { (tellSensed w s).jge with
          watches := (watchesTold s.hlc.stale s.hlc.word w (tellSensed w s)).jge.watches } := rfl
    rw [h1, hsjge, hscan.judged]
    rfl
  · rw [hsummaries, hscan.summary c]
    rfl
  · rw [hldt, hscan.learned]
    rfl
  · rw [htold, hx, toldWatch_disarmed _ _ _ _ _ _ (by rw [hrules, hword]; exact hp)]
  · have harmed := toldWatch_armed (tellSensed w s) s.hlc.word w c s.hlc.stale x (p := p) (v := v)
      (by rw [hrules, hword]; exact hp) (by rw [hsflt]; exact hv)
    rw [hsnow] at harmed
    refine (htold c).trans ?_
    rw [← hx]
    refine harmed.trans ?_
    cases x.armed <;> rfl
  · refine congrArg (List.map _) (List.filter_congr fun c _ => ?_)
    have hheld : withheld (tellSensed w s) c =
        (s.clc.census.isSome || t.sfe.voltage || holdMatches s.jge.rules w c) := by
      rw [withheld, hsclc, hrules, hword, hsfe]
    rw [hheld, hrules, hword]
    simp only [Bool.not_or, Option.not_isSome, Bool.and_assoc]
    rfl
  · rw [htactivation]
    exact applyBatch_goods_activation _ hgoods _
  · have hnone : toldGoods s.hlc.stale s.hlc.word w (tellSensed w s) = [] := by rw [hs, toldGoods_ended]
    have hdue : tellDue w s = [] := by simp [tellDue, tellCircuits, dueOf, hs]
    rw [htcontents, hnone, tellScanned_noneDue hdue]
    rfl
  · rw [hreplies, hstate, htarget]
  · obtain ⟨hclc, hsvc⟩ := hplain hn
    exact ⟨hclc, hsvc.trans hscan.captured⟩
  · obtain ⟨hclc, hsvc⟩ := hcoupled h1 h2
    rw [hclc, hsvc, hscan.captured]
    exact ⟨rfl, rfl, rfl, rfl, rfl, rfl⟩

end Sys2Proof.Machine

end
